-- ==== Sys2Proof/Word.lean ====
section
/-! DEFINITION. The words of the TDP block: bytes, port numbers, request and response words, event words. -/

namespace Sys2Proof

/-- Byte = 8 bits (spec/00_scope.md, section 6). -/
abbrev Byte := BitVec 8

/-- A port number of the I/O port space: 16 bits (R50). -/
abbrev Port := BitVec 16

/-- The 32-bit operand of a request and the 32-bit value of a response (R70, R71). -/
abbrev Word32 := BitVec 32

/-- A request word `REQ40` (R70) or a response word `RSP40` (R71). -/
abbrev Word40 := BitVec 40

/-- An event word `EV2`: bit 0 = `ev_tick`, bit 1 = `ev_kbd` (R72). -/
abbrev EventWord := BitVec 2

end Sys2Proof
end

