-- ==== Sys2Proof/Syntax.lean ====
section
/-! DEFINITION. The 13 request operations and the 2 events of spec/opcode_table.json (R73). -/

namespace Sys2Proof

/-- One constructor per row of the operation map R73, with the operand fields of R74 and R75. -/
inductive Instr where
  /-- `CLKINIT freq` (R90). -/
  | clkinit (freq : Word32)
  /-- `GETTICK` (R92). -/
  | gettick
  /-- `DEADLINE ms` (R101). -/
  | deadline (ms : Word32)
  /-- `EXPIRED deadline` (R103); the bits above `W` are carried and ignored. -/
  | expired (deadline : Word32)
  /-- `SLEEP ms` (R104). -/
  | sleep (ms : Word32)
  /-- `PS2WR byte` (R116). -/
  | ps2wr (byte : Byte)
  /-- `PS2RD` (R117). -/
  | ps2rd
  /-- `PS2FLUSH` (R119). -/
  | ps2flush
  /-- `PS2CMD cmd` (R118). -/
  | ps2cmd (cmd : Byte)
  /-- `PS2INIT` (R121). -/
  | ps2init
  /-- `SENDCMD` (R141) with the fields of R75; the argument bytes not counted by `nargs` are carried and ignored. -/
  | sendcmd (nargs : BitVec 2) (arg1 arg0 opcode : Byte)
  /-- `SCANPOP` (R151). -/
  | scanpop
  /-- `KBDINIT` (R160). -/
  | kbdinit
  /-- `ADVANCE_TICK`, the event of the TIMER agent (R91). -/
  | advanceTick
  /-- `KBD_BYTE`, the event of the KBD agent (R140). -/
  | kbdByte
deriving DecidableEq, Repr

end Sys2Proof
end

