-- ==== Sys2Proof/WellFormed.lean ====
section
/-! DEFINITION. Which terms of `Instr` are instructions (the operand conditions of R75, R76, R82). -/

namespace Sys2Proof

/-- The closed enumeration R82 of controller commands: self-test, interface test of port 1, interface test
of port 2, enable port-1 clock, disable port-1 clock. -/
def controllerCommands : List Byte := [0xAA, 0xAB, 0xA9, 0xAE, 0xAD]

/-- `PS2CMD` takes a command of R82; `SENDCMD` takes at most `MAX_ARGS = 2` argument bytes (R75: 3 is illegal). -/
def Instr.wellFormed : Instr → Bool
  | .ps2cmd cmd => controllerCommands.contains cmd
  | .sendcmd nargs _ _ _ => nargs != 3
  | .clkinit _ | .gettick | .deadline _ | .expired _ | .sleep _ | .ps2wr _ | .ps2rd | .ps2flush
  | .ps2init | .scanpop | .kbdinit | .advanceTick | .kbdByte => true

/-- A well-formed instruction. -/
abbrev Instr.WellFormed (i : Instr) : Prop := i.wellFormed = true

end Sys2Proof
end

