-- ==== Sys2Proof/Decode.lean ====
section
/-! DEFINITION. From request words and event words to instructions, rejecting by name, and back (R70 to R76). -/

namespace Sys2Proof

/-- Why a word is no instruction. For a request each of these makes the request illegal (R76). -/
inductive Reject where
  /-- `op` is not one of the 13 numbers of R73. -/
  | unknownOp
  /-- A must-be-zero operand bit of R74 or R75 is 1. -/
  | reservedBit
  /-- `PS2CMD` with a `cmd` outside the set of R82. -/
  | notControllerCommand
  /-- `SENDCMD` with `dev = 1`: the second port is a non-goal (R5, R75). -/
  | secondDevice
  /-- `SENDCMD` with `nargs = 3`. -/
  | tooManyArgs
  /-- An event word with no bit set: no event. -/
  | noEvent
  /-- An event word with both bits set: two events, not one instruction (R72). -/
  | twoEvents
deriving DecidableEq, Repr

/-- A word on one of the block's two instruction inputs: the request channel (R70) or the event lines (R72). -/
inductive Code where
  | request (w : Word40)
  | event (w : EventWord)
deriving DecidableEq, Repr

/-- The `op` field, bits 39:32 (R70). -/
def opField (w : Word40) : Byte := w.extractLsb' 32 8

/-- The `operand` field, bits 31:0 (R70). -/
def operandField (w : Word40) : Word32 := w.extractLsb' 0 32

/-- An operation without an operand: operand bits 31:0 must be zero (R74). -/
def decodeNone (x : Word32) (i : Instr) : Except Reject Instr :=
  if x = 0 then .ok i else .error .reservedBit

/-- `PS2WR`: `byte = operand[7:0]`, bits 31:8 must be zero (R74). -/
def decodePs2wr (x : Word32) : Except Reject Instr :=
  if x.extractLsb' 8 24 = 0 then .ok (.ps2wr (x.extractLsb' 0 8)) else .error .reservedBit

/-- `PS2CMD`: `cmd = operand[7:0]`, bits 31:8 must be zero, `cmd` in the set of R82 (R74, R118). -/
def decodePs2cmd (x : Word32) : Except Reject Instr :=
  if x.extractLsb' 8 24 = 0 then
    if controllerCommands.contains (x.extractLsb' 0 8) then .ok (.ps2cmd (x.extractLsb' 0 8))
    else .error .notControllerCommand
  else .error .reservedBit

/-- `SENDCMD`: the layout of R75. -/
def decodeSendcmd (x : Word32) : Except Reject Instr :=
  if x.extractLsb' 27 5 = 0 then
    if x.extractLsb' 26 1 = 0 then
      if x.extractLsb' 24 2 = 3 then .error .tooManyArgs
      else .ok (.sendcmd (x.extractLsb' 24 2) (x.extractLsb' 16 8) (x.extractLsb' 8 8) (x.extractLsb' 0 8))
    else .error .secondDevice
  else .error .reservedBit

/-- The operation map R73 by operation number. -/
def decodeOp (op : Byte) (x : Word32) : Except Reject Instr :=
  if op = 0x01 then .ok (.clkinit x)
  else if op = 0x02 then decodeNone x .gettick
  else if op = 0x10 then .ok (.deadline x)
  else if op = 0x11 then .ok (.expired x)
  else if op = 0x12 then .ok (.sleep x)
  else if op = 0x20 then decodePs2wr x
  else if op = 0x21 then decodeNone x .ps2rd
  else if op = 0x22 then decodeNone x .ps2flush
  else if op = 0x23 then decodePs2cmd x
  else if op = 0x24 then decodeNone x .ps2init
  else if op = 0x30 then decodeSendcmd x
  else if op = 0x31 then decodeNone x .scanpop
  else if op = 0x40 then decodeNone x .kbdinit
  else .error .unknownOp

/-- A request word, by R73 to R76. -/
def decodeRequest (w : Word40) : Except Reject Instr := decodeOp (opField w) (operandField w)

/-- The events an event word pulses, in the table's order (R72). -/
def eventsOf (w : EventWord) : List Instr :=
  (if w.getLsbD 0 then [.advanceTick] else []) ++ (if w.getLsbD 1 then [.kbdByte] else [])

/-- The one instruction an event word stands for (R72). -/
def decodeEvent (w : EventWord) : Except Reject Instr :=
  match eventsOf w with
  | [] => .error .noEvent
  | [i] => .ok i
  | _ :: _ :: _ => .error .twoEvents

/-- The decoder: total on every word of either input. -/
def decode : Code → Except Reject Instr
  | .request w => decodeRequest w
  | .event w => decodeEvent w

/-- A request word from its two fields (R70). -/
def requestWord (op : Byte) (operand : Word32) : Word40 := op ++ operand

/-- The operand word of `SENDCMD` (R75): bits 31:27 zero, `dev` = 0, `nargs`, `arg1`, `arg0`, `opcode`. -/
def sendcmdOperand (nargs : BitVec 2) (arg1 arg0 opcode : Byte) : Word32 :=
  (0 : BitVec 5) ++ (0 : BitVec 1) ++ nargs ++ arg1 ++ arg0 ++ opcode

/-- The encoder, written from R70 to R75. -/
def encode : Instr → Code
  | .clkinit freq => .request (requestWord 0x01 freq)
  | .gettick => .request (requestWord 0x02 0)
  | .deadline ms => .request (requestWord 0x10 ms)
  | .expired d => .request (requestWord 0x11 d)
  | .sleep ms => .request (requestWord 0x12 ms)
  | .ps2wr b => .request (requestWord 0x20 (b.zeroExtend 32))
  | .ps2rd => .request (requestWord 0x21 0)
  | .ps2flush => .request (requestWord 0x22 0)
  | .ps2cmd c => .request (requestWord 0x23 (c.zeroExtend 32))
  | .ps2init => .request (requestWord 0x24 0)
  | .sendcmd nargs arg1 arg0 opcode => .request (requestWord 0x30 (sendcmdOperand nargs arg1 arg0 opcode))
  | .scanpop => .request (requestWord 0x31 0)
  | .kbdinit => .request (requestWord 0x40 0)
  | .advanceTick => .event 1
  | .kbdByte => .event 2

/-- What the decoder reads from a word of spec/opcode_table.json: a row of 40 bits is a request word; a shorter
row is an event word, whose two wires are the low two bits (R72). Of two events it names the first. -/
def decodeTableWord (nbits w : Nat) : Option Instr :=
  if 40 ≤ nbits then (decodeRequest (BitVec.ofNat 40 w)).toOption
  else (eventsOf (BitVec.ofNat 2 w)).head?

end Sys2Proof
end

