-- ==== Sys2Proof/Config.lean ====
section
/-! DEFINITION. The implementation parameters of R6 and the free values (what the environment decides). -/

namespace Sys2Proof.Config

/-- The OPEN parameters of R6.
A block is built with one such record: State carries it, no step changes it, and statements hold for every record. -/
structure Params where
  /-- `W`: width of the tick counter and of every deadline, in bits. -/
  width : Nat
  /-- `OSC_HZ`: timer input oscillator frequency in Hz. -/
  oscHz : Word32
  /-- `P_PIT_CH0`: I/O port of timer channel 0 data. -/
  portPitCh0 : Port
  /-- `P_PIT_CTRL`: I/O port of the timer control word. -/
  portPitCtrl : Port
  /-- `P_PS2_DATA`: I/O port of the 8042 data register. -/
  portPs2Data : Port
  /-- `P_PS2_STCMD`: status register on read, command register on write. -/
  portPs2StCmd : Port
  /-- `PIT_CW`: the control byte written by `CLKINIT` (R79). -/
  pitCw : Byte
  /-- `T_POLL_MS`: timeout of each status poll. -/
  tPollMs : Word32
  /-- `T_FLUSH_MS`: timeout of the flush loop. -/
  tFlushMs : Word32
  /-- `T_ACK_MS`: timeout of each wait for a device response byte. -/
  tAckMs : Word32
  /-- `T_BAT_MS`: timeout of the wait for the `0xAA` byte after device reset. -/
  tBatMs : Word32
  /-- `MAX_RETRIES`: resend bound per byte. -/
  maxRetries : Nat
  /-- `SCANQ_CAP`: capacity of the scancode queue; `none` = unbounded. -/
  scanqCap : Option Nat
  /-- `IRQ_TIMER`: line named in the timer's end-of-interrupt signal. -/
  irqTimer : Nat
  /-- `IRQ_KBD`: line named in the keyboard's end-of-interrupt signal. -/
  irqKbd : Nat
deriving DecidableEq, Repr

/-- The ranges R6 gives: `2 <= W <= 32`, `1 <= OSC_HZ`, the four port numbers pairwise distinct
(the 32-bit ranges are in the types). -/
abbrev Params.Ok (p : Params) : Prop :=
  2 ≤ p.width ∧ p.width ≤ 32 ∧ 1 ≤ p.oscHz.toNat ∧
  p.portPitCh0 ≠ p.portPitCtrl ∧ p.portPitCh0 ≠ p.portPs2Data ∧ p.portPitCh0 ≠ p.portPs2StCmd ∧
  p.portPitCtrl ≠ p.portPs2Data ∧ p.portPitCtrl ≠ p.portPs2StCmd ∧ p.portPs2Data ≠ p.portPs2StCmd

/-- Parameter set A: the defaults of R6, and for the four durations, which have no default, the values
of spec/95_test_vectors.md. DESIGN CHOICE for the durations (log 2); unsafe for a claim that rests on them. -/
def Params.setA : Params where
  width := 32
  oscHz := 1193182
  portPitCh0 := 0x40
  portPitCtrl := 0x43
  portPs2Data := 0x60
  portPs2StCmd := 0x64
  pitCw := 0x34
  tPollMs := 20
  tFlushMs := 20
  tAckMs := 50
  tBatMs := 1000
  maxRetries := 3
  scanqCap := none
  irqTimer := 0
  irqKbd := 1

/-- FREE VALUE (log 4): the byte the environment answers to a port read when no answer is lined up in
`State.envq`, for the draw number and the port (R61, U1: any of 0..255 at each read). -/
opaque envByte : Nat → Port → Byte

/-- FREE VALUE (log 6): which of two simultaneous events occurs first, for the draw number;
`true` = `KBD_BYTE` first (R179: either order). -/
opaque kbdFirst : Nat → Bool

end Sys2Proof.Config
end

