-- ==== Sys2Proof/Machine/State.lean ====
section
/-! DEFINITION. The state of the TDP block (R20 to R37), its value at reset, and the reasons a step can stop. -/

namespace Sys2Proof.Machine

/-- The status codes of R77, a closed enumeration. -/
inductive Status where
  | ok
  | timeout
  | protocolError
  | controllerFault
  | deviceUnresponsive
  | empty
  | illegalOp
deriving DecidableEq, Repr

/-- `CTRL_STATE`: the bring-up state of the 8042 controller (R24). -/
inductive CtrlState where
  | uninit
  | selfTestPending
  | selfTestOk
  | selfTestFailed
  | portTestPending
  | portReady
  | portFailed
  | deviceEnabled
deriving DecidableEq, Repr

/-- `ACK_STATE`: the state of the pending-ack slot (R26). -/
inductive AckState where
  | idle
  | pending
  | acked
  | resend
  | timedOut
  | desync
deriving DecidableEq, Repr

/-- `OP`: the operation in progress, or `IDLE` (R28). -/
inductive Op where
  | idle
  | clkinit
  | gettick
  | deadline
  | expired
  | sleep
  | ps2wr
  | ps2rd
  | ps2flush
  | ps2cmd
  | ps2init
  | sendcmd
  | scanpop
  | kbdinit
deriving DecidableEq, Repr

/-- Labels of `CLKINIT` (R90). -/
inductive ClkPc where
  | c1 | c2 | c3 | c4
deriving DecidableEq, Repr

/-- Labels of `SLEEP` (R104). -/
inductive SleepPc where
  | s0 | s1
deriving DecidableEq, Repr

/-- Labels of `poll_wait` (R115). -/
inductive PollPc where
  | p0 | p1 | p2
deriving DecidableEq, Repr

/-- Labels of `write_to_device` (R116). -/
inductive WritePc where
  | poll (l : PollPc)
  | w1
deriving DecidableEq, Repr

/-- Labels of `read_from_device` (R117). -/
inductive ReadPc where
  | poll (l : PollPc)
  | r1
deriving DecidableEq, Repr

/-- Labels of `cmd_write` (R118). -/
inductive CmdPc where
  | poll (l : PollPc)
  | k1
deriving DecidableEq, Repr

/-- Labels of `flush` (R119). -/
inductive FlushPc where
  | f0 | f1 | f2 | f3
deriving DecidableEq, Repr

/-- Labels of `ps2_init` (R121), each call with the label inside the micro-routine called:
the self-test's command write and response read, the interface test's, and the `0xAE` write. -/
inductive InitPc where
  | i0
  | flush (l : FlushPc)
  | i1
  | selfCmd (l : CmdPc)
  | selfRead (l : ReadPc)
  | i2
  | portCmd (l : CmdPc)
  | portRead (l : ReadPc)
  | enable (l : CmdPc)
deriving DecidableEq, Repr

/-- Labels of `send_command` (R141). -/
inductive SendPc where
  | s0
  | write (l : WritePc)
  | s1
  | s2
  | s3
  | flush (l : FlushPc)
deriving DecidableEq, Repr

/-- Labels of `KBDINIT` (R160): the controller bring-up, the `0xFF` command, the wait for `0xAA` and its
exits, and the `0xF4` command. -/
inductive KbdPc where
  | init (l : InitPc)
  | reset (l : SendPc)
  | b1
  | b2
  | b3
  | flush (l : FlushPc)
  | enable (l : SendPc)
deriving DecidableEq, Repr

/-- The sequencer position, the pair `(OP, PC)` (R31): `idle`, or an operation with the label of its next
atomic action and the return labels of the micro-routines entered (R28). -/
inductive Position where
  | idle
  | clkinit (l : ClkPc)
  | gettick
  | deadline
  | expired
  | sleep (l : SleepPc)
  | ps2wr (l : WritePc)
  | ps2rd (l : ReadPc)
  | ps2flush (l : FlushPc)
  | ps2cmd (l : CmdPc)
  | ps2init (l : InitPc)
  | sendcmd (l : SendPc)
  | scanpop
  | kbdinit (l : KbdPc)
deriving DecidableEq, Repr

/-- One entry of the event history (spec/00_scope.md, section 6). -/
inductive TraceEvent where
  /-- `req(word)`: a request word was accepted. -/
  | req (w : Word40)
  /-- `rsp(status, value)`: the response of an operation. -/
  | rsp (st : Status) (v : Word32)
  /-- `IoR(p)=b`. -/
  | ioR (p : Port) (b : Byte)
  /-- `IoW(p, b)`. -/
  | ioW (p : Port) (b : Byte)
  /-- An `ADVANCE_TICK` event. -/
  | tick
  /-- A `KBD_BYTE` event whose read of the data port returned `b`. -/
  | kbd (b : Byte)
  /-- `EOI(line)`. -/
  | eoi (line : Nat)
deriving DecidableEq, Repr

/-- What the outside does between two atomic actions: the event word sampled there (R72), or the reset input (R195). -/
inductive Input where
  | ev (w : EventWord)
  | reset
deriving DecidableEq, Repr

/-- The state of the block (R20) and, after it, the model's own fields: the parameters, what the outside has
lined up, the event history. -/
@[ext]
structure State where
  /-- `TICK` (R21), a count kept modulo `2^W`. -/
  tick : Nat
  /-- `FREQ` (R22). -/
  freq : BitVec 32
  /-- `DIVISOR` (R23). -/
  divisor : BitVec 17
  /-- `CTRL_STATE` (R24). -/
  ctrlState : CtrlState
  /-- `UNRESP` (R25). -/
  unresp : Bool
  /-- `LATCH_STATUS` (R25). -/
  latchStatus : Status
  /-- `LATCH_VALUE` (R25). -/
  latchValue : Word32
  /-- `ACK_STATE` (R26). -/
  ackState : AckState
  /-- `ACK_BYTE` (R26). -/
  ackByte : Byte
  /-- `SCANQ`, oldest byte first (R27). -/
  scanq : List Byte
  /-- `OVERRUN` (R27). -/
  overrun : Bool
  /-- `(OP, PC)` (R28, R31). -/
  pos : Position
  /-- `DL`, the deadline of the wait in progress (R28). -/
  dl : Nat
  /-- The stored half of `CUR` (R28): the byte last read. `State.curByte` is all of `CUR` (log 14). -/
  cur : Byte
  /-- `IDX` (R28). -/
  idx : Nat
  /-- `RETRIES` (R28). -/
  retries : Nat
  /-- `S` (R28). -/
  sreg : Byte
  /-- `REQ` (R29). -/
  req : Word40
  /-- `RSP` (R29). -/
  rsp : Word40
  /-- The parameters of R6; no step changes them (log 1). -/
  par : Config.Params
  /-- The request words HOST has still to present, first one first (log 7). -/
  hostq : List Word40
  /-- The event words of the coming gaps between atomic actions, and resets, first one first (log 5). -/
  inputs : List Input
  /-- The bytes the environment answers to the coming port reads, first one first (log 4). -/
  envq : List Byte
  /-- How many free values have been drawn (log 4, log 6). -/
  draws : Nat
  /-- The event history, NEWEST FIRST (log 10). -/
  trace : List TraceEvent
deriving DecidableEq, Repr

/-- Why a step stops the machine. The block itself has no fault (R11). -/
inductive Fault where
  /-- Raised by `step` when an operation is in progress and `REQ` holds no legal request.
  No run reaches such a state (`Safety.Inv`), so the stop is safe (log 13). -/
  | noLegalRequest
deriving DecidableEq, Repr

/-- Why `exec` gives no meaning. -/
inductive Refusal where
  /-- Raised by `exec` for an instruction that has no meaning yet; safe. -/
  | notModelled (mnemonic : String)
  /-- Raised by a request's meaning while ANOTHER operation is in progress: HOST has no such move
  (R9, U11: refuse). `step` never raises it from a state of a run; safe (log 13). -/
  | operationInProgress
deriving DecidableEq, Repr

/-- The outcome of a step of this machine. -/
abbrev Result := Host.Outcome State Fault Refusal

/-- The state after reset of a block built with the parameters `p`: the table of R36.
`DL`, `CUR`, `IDX`, `RETRIES`, `S` are 0: DESIGN CHOICE, the spec leaves them unspecified; unsafe (log 3).
The model's own fields are empty. -/
def State.resetOf (p : Config.Params) : State where
  tick := 0
  freq := 0
  divisor := 0
  ctrlState := .uninit
  unresp := false
  latchStatus := .ok
  latchValue := 0
  ackState := .idle
  ackByte := 0
  scanq := []
  overrun := false
  pos := .idle
  dl := 0
  cur := 0
  idx := 0
  retries := 0
  sreg := 0
  req := 0
  rsp := 0
  par := p
  hostq := []
  inputs := []
  envq := []
  draws := 0
  trace := []

/-- The machine right after reset (R195, R36), with parameter set A (log 2). -/
def State.reset : State := State.resetOf .setA

end Sys2Proof.Machine
end

