-- ==== Sys2Proof/Machine/Operands.lean ====
section
/-! DEFINITION. Operand assembly, response values and the time arithmetic (R74 to R78, R100, R102). -/

namespace Sys2Proof.Machine

/-- The codes of R77. -/
def Status.code : Status → Byte
  | .ok => 0x00
  | .timeout => 0x01
  | .protocolError => 0x02
  | .controllerFault => 0x03
  | .deviceUnresponsive => 0x04
  | .empty => 0x05
  | .illegalOp => 0x0F

/-- The codes of R24. -/
def CtrlState.code : CtrlState → BitVec 3
  | .uninit => 0
  | .selfTestPending => 1
  | .selfTestOk => 2
  | .selfTestFailed => 3
  | .portTestPending => 4
  | .portReady => 5
  | .portFailed => 6
  | .deviceEnabled => 7

/-- The codes of R26. -/
def AckState.code : AckState → BitVec 3
  | .idle => 0
  | .pending => 1
  | .acked => 2
  | .resend => 3
  | .timedOut => 4
  | .desync => 5

/-- The response word `RSP40 = {status[7:0], value[31:0]}` (R71). -/
def responseWord (st : Status) (v : Word32) : Word40 := st.code ++ v

/-- `zext_32` of a byte (R78). -/
def zext32 (b : Byte) : Word32 := b.zeroExtend 32

/-- `{hi, lo}` of two bytes as a 32-bit value: `{test, byte}` and `{last_error, opcode}` of R78. -/
def pair32 (hi lo : Byte) : Word32 := (0 : BitVec 16) ++ hi ++ lo

/-- `zext_32` of a tick or deadline of at most 32 bits (R78). -/
def tick32 (t : Nat) : Word32 := BitVec.ofNat 32 t

/-- The byte sequence of a command: `[opcode] ++ [arg0 if nargs >= 1] ++ [arg1 if nargs = 2]` (R75). -/
def commandBytes (nargs : BitVec 2) (arg1 arg0 opcode : Byte) : List Byte :=
  [opcode] ++ (if 1 ≤ nargs.toNat then [arg0] else []) ++ (if nargs.toNat = 2 then [arg1] else [])

/-- The operation a request instruction runs (R28); an event runs none. -/
def opOf : Instr → Op
  | .clkinit _ => .clkinit
  | .gettick => .gettick
  | .deadline _ => .deadline
  | .expired _ => .expired
  | .sleep _ => .sleep
  | .ps2wr _ => .ps2wr
  | .ps2rd => .ps2rd
  | .ps2flush => .ps2flush
  | .ps2cmd _ => .ps2cmd
  | .ps2init => .ps2init
  | .sendcmd _ _ _ _ => .sendcmd
  | .scanpop => .scanpop
  | .kbdinit => .kbdinit
  | .advanceTick | .kbdByte => .idle

/-- The `OP` half of the sequencer position (R31). -/
def Position.op : Position → Op
  | .idle => .idle
  | .clkinit _ => .clkinit
  | .gettick => .gettick
  | .deadline => .deadline
  | .expired => .expired
  | .sleep _ => .sleep
  | .ps2wr _ => .ps2wr
  | .ps2rd _ => .ps2rd
  | .ps2flush _ => .ps2flush
  | .ps2cmd _ => .ps2cmd
  | .ps2init _ => .ps2init
  | .sendcmd _ => .sendcmd
  | .scanpop => .scanpop
  | .kbdinit _ => .kbdinit

/-- The first atomic action of an operation (the first label of its rule, or of the micro-routine it calls first). -/
def entryOf : Instr → Position
  | .clkinit _ => .clkinit .c1
  | .gettick => .gettick
  | .deadline _ => .deadline
  | .expired _ => .expired
  | .sleep _ => .sleep .s0
  | .ps2wr _ => .ps2wr (.poll .p0)
  | .ps2rd => .ps2rd (.poll .p0)
  | .ps2flush => .ps2flush .f0
  | .ps2cmd _ => .ps2cmd (.poll .p0)
  | .ps2init => .ps2init .i0
  | .sendcmd _ _ _ _ => .sendcmd .s0
  | .scanpop => .scanpop
  | .kbdinit => .kbdinit (.init .i0)
  | .advanceTick | .kbdByte => .idle

/-- Where instruction `i` stands in the state's position: its first label while the sequencer is idle (log 8),
the position itself while `i`'s operation is in progress, and `none` while another one is. -/
def positionFor (i : Instr) (p : Position) : Option Position :=
  if p = .idle then some (entryOf i) else if p.op = opOf i then some p else none

/-- The command byte that `ps2_init` writes in the action at a label, if that is a write (R121). -/
def initByte : InitPc → Option Byte
  | .selfCmd .k1 => some 0xAA
  | .portCmd .k1 => some 0xAB
  | .enable .k1 => some 0xAE
  | .selfCmd (.poll _) | .portCmd (.poll _) | .enable (.poll _) => none
  | .i0 | .i1 | .i2 | .flush _ | .selfRead _ | .portRead _ => none

/-- The byte being written: the one the action the sequencer stands at, `[w1]` or `[k1]`, writes (R116, R118). -/
def State.byteBeingWritten (s : State) : Option Byte :=
  match s.pos, decodeRequest s.req with
  | .ps2wr .w1, .ok (.ps2wr byte) => some byte
  | .ps2cmd .k1, .ok (.ps2cmd cmd) => some cmd
  | .ps2init l, _ => initByte l
  | .sendcmd (.write .w1), .ok (.sendcmd nargs arg1 arg0 opcode) =>
    (commandBytes nargs arg1 arg0 opcode)[s.idx]?
  | .kbdinit (.init l), _ => initByte l
  | .kbdinit (.reset (.write .w1)), _ => some 0xFF
  | .kbdinit (.enable (.write .w1)), _ => some 0xF4
  | _, _ => none

/-- `CUR`: the byte being written or just read (R28). The byte being written is read off the request, so that
`[w1]` and `[k1]` store nothing in `CUR` (R116, R118; log 14). -/
def State.curByte (s : State) : Byte := s.byteBeingWritten.getD s.cur

/-- `2^W`. -/
def State.modulus (s : State) : Nat := 2 ^ s.par.width

/-- `delta(ms) = ((ms * FREQ + 999) div 1000) mod 2^W` (R100). -/
def State.delta (s : State) (ms : Word32) : Nat :=
  (ms.toNat * s.freq.toNat + 999) / 1000 % s.modulus

/-- The deadline `(TICK + delta(ms)) mod 2^W` (R101, R104, R115). -/
def State.deadlineIn (s : State) (ms : Word32) : Nat := (s.tick + s.delta ms) % s.modulus

/-- `diff = (TICK - d) mod 2^W`: `W`-bit unsigned subtraction, borrow discarded (R102). -/
def State.sinceDeadline (s : State) (d : Nat) : Nat :=
  (s.tick + (s.modulus - d % s.modulus)) % s.modulus

/-- `expired(d) = (diff < 2^(W-1))` (R102). -/
def State.expired (s : State) (d : Nat) : Bool := decide (s.sinceDeadline d < 2 ^ (s.par.width - 1))

/-- `freq` clamped to `[1, OSC_HZ]` (R90, action `[c1]`). -/
def State.clampFreq (s : State) (freq : Word32) : Nat :=
  if freq.toNat = 0 then 1 else if s.par.oscHz.toNat < freq.toNat then s.par.oscHz.toNat else freq.toNat

/-- The floor quotient `OSC_HZ div f`, clamped to `[1, 65536]` (R90, action `[c1]`). -/
def State.divisorFor (s : State) (f : Nat) : Nat :=
  if 65536 < s.par.oscHz.toNat / f then 65536 else s.par.oscHz.toNat / f

end Sys2Proof.Machine
end

