-- ==== Sys2Proof/Machine/Flags.lean ====
section
/-! DEFINITION. The status flags of R32: `UNRESP` with its latch, `OVERRUN`, the slot state `ACK_STATE`; and `CTRL_STATE`. -/

namespace Sys2Proof.Machine

/-- The class of a byte deposited while a response is pending: `0xFA` ACK, `0xFE` RESEND, otherwise a desync (R140). -/
def ackClass (b : Byte) : AckState :=
  if b = 0xFA then .acked else if b = 0xFE then .resend else .desync

/-- `ACK_STATE <- a`. -/
def State.setAck (s : State) (a : AckState) : State := { s with ackState := a }

/-- `CTRL_STATE <- c`. -/
def State.setCtrl (s : State) (c : CtrlState) : State := { s with ctrlState := c }

/-- `latch(st, v)`: `UNRESP <- 1 ; LATCH_STATUS <- st ; LATCH_VALUE <- v` (R141, R149). -/
def State.latch (s : State) (st : Status) (v : Word32) : State :=
  { s with unresp := true, latchStatus := st, latchValue := v }

/-- Whether the scancode queue has room for one more byte (R27, R140). -/
def State.queueHasRoom (s : State) : Bool :=
  match s.par.scanqCap with
  | none => true
  | some cap => decide (s.scanq.length < cap)

/-- Where a byte from the keyboard goes: the armed slot, else the queue, else it is dropped and `OVERRUN` set (R140). -/
def State.routeByte (s : State) (b : Byte) : State :=
  if s.ackState = .pending then { s with ackByte := b, ackState := ackClass b }
  else if s.queueHasRoom then { s with scanq := s.scanq ++ [b] }
  else { s with overrun := true }

end Sys2Proof.Machine
end

