-- ==== Sys2Proof/Machine/Ops.lean ====
section
/-! DEFINITION. The shared operations: port access, responses, events, acceptance of requests, reset, and whose turn it is. -/

namespace Sys2Proof.Machine

/-- Adds an entry to the event history. -/
def State.record (s : State) (e : TraceEvent) : State := { s with trace := e :: s.trace }

/-- `goto label`. -/
def State.goto (s : State) (p : Position) : State := { s with pos := p }

/-- `DL <- (TICK + delta(ms)) mod 2^W`. -/
def State.setDeadline (s : State) (ms : Word32) : State := { s with dl := s.deadlineIn ms }

/-- The byte the environment answers to the next read of port `p` (R61): the next one lined up, or a free value (log 4). -/
def State.envAnswer (s : State) (p : Port) : Byte :=
  match s.envq with
  | b :: _ => b
  | [] => Config.envByte s.draws p

/-- The environment's answer is used up. -/
def State.afterAnswer (s : State) : State :=
  { s with envq := s.envq.tail, draws := if s.envq.isEmpty then s.draws + 1 else s.draws }

/-- The effect of `IoRead(p)` on the state: the answer is used up and the access recorded (R59, R61).
The byte read is `s.envAnswer p`. -/
def State.afterRead (s : State) (p : Port) : State := s.afterAnswer.record (.ioR p (s.envAnswer p))

/-- `S <- IoRead(P_PS2_STCMD)` (R60, R115, R119). -/
def State.readStatus (s : State) : State :=
  { s.afterRead s.par.portPs2StCmd with sreg := s.envAnswer s.par.portPs2StCmd }

/-- `CUR <- IoRead(P_PS2_DATA)` (R117, R119). -/
def State.readData (s : State) : State :=
  { s.afterRead s.par.portPs2Data with cur := s.envAnswer s.par.portPs2Data }

/-- `IoWrite(p, b)`: absorbed by the environment, recorded (R7, R61). -/
def State.ioWrite (s : State) (p : Port) (b : Byte) : State := s.record (.ioW p b)

/-- `respond(status, value)`: latches the response, ends the operation (spec/00_scope.md section 6, R31). -/
def State.respond (s : State) (st : Status) (v : Word32) : State :=
  { s.record (.rsp st v) with rsp := responseWord st v, pos := .idle }

/-- Taking an interrupt event and returning from it. Entry saves nothing and switches nothing (R181), so only
the handler's `body` acts; return emits `eoi(line)` as the event's last effect and restores nothing (R182). -/
def State.takeEvent (s : State) (line : Nat) (body : State → State) : State := (body s).record (.eoi line)

/-- The arming of `[w1]`: `ACK_STATE <- Pending ; DL <- (TICK + delta(ms)) mod 2^W` in one action (R116, R142, R161). -/
def State.arm (s : State) (ms : Word32) : State := (s.setAck .pending).setDeadline ms

/-- A request word is accepted (R9, R28, R29): `REQ` latches it and the operation's first label is next.
An illegal request is answered at once with `respond(IllegalOp, operand)` and has no other effect (R76). -/
def State.accept (s : State) (w : Word40) : State :=
  match decodeRequest w with
  | .ok i => ({ s with req := w }.record (.req w)).goto (entryOf i)
  | .error _ => ({ s with req := w }.record (.req w)).respond .illegalOp (operandField w)

/-- The reset input (R195, R36): every register takes its reset value, the operation in progress is abandoned
without a response, no port is accessed; the environment and what it has lined up are not touched (R37, log 11). -/
def State.resetInput (s : State) : State :=
  { State.resetOf s.par with
    hostq := s.hostq, inputs := s.inputs, envq := s.envq, draws := s.draws, trace := s.trace }

/-- Whose turn it is, and with what. -/
inductive Turn where
  /-- The reset input, HOST, or nobody: this is the next state. -/
  | done (s : State)
  /-- `TIMER`, `KBD` or `SEQ`: this instruction runs in this state. -/
  | run (i : Instr) (s : State)
  /-- An operation is in progress without a legal request (unreachable, log 13). -/
  | lost
deriving DecidableEq, Repr

/-- No event is due: `SEQ` goes on with the request in `REQ`, or, while it is idle, HOST's next request is
accepted, or nothing happens (R9, R31, R65). -/
def State.sequencerTurn (s : State) : Turn :=
  if s.pos = .idle then
    match s.hostq with
    | [] => .done s
    | w :: rest => .done ({ s with hostq := rest }.accept w)
  else
    match decodeRequest s.req with
    | .ok i => .run i s
    | .error _ => .lost

/-- Both event bits: one event now, in an order the environment is free in; the other stays due (R72, R179, log 6). -/
def State.bothEvents (s : State) (rest : List Input) : Turn :=
  if Config.kbdFirst s.draws then .run .kbdByte { s with inputs := .ev 1 :: rest, draws := s.draws + 1 }
  else .run .advanceTick { s with inputs := .ev 2 :: rest, draws := s.draws + 1 }

/-- The event word of this gap is sampled: an event that is due occurs, otherwise the sequencer's turn comes (R8, R72). -/
def State.eventTurn (s : State) (w : EventWord) (rest : List Input) : Turn :=
  match eventsOf w with
  | [] => { s with inputs := rest }.sequencerTurn
  | [i] => .run i { s with inputs := rest }
  | _ :: _ :: _ => s.bothEvents rest

/-- Whose turn the next step is (R7, R8). With no input lined up no event pulses (log 5). -/
def State.turn (s : State) : Turn :=
  match s.inputs with
  | [] => s.sequencerTurn
  | .reset :: rest => .done { s with inputs := rest }.resetInput
  | .ev w :: rest => s.eventTurn w rest

/-- HOST presents the request word `w` to the idle block, and no event is due in the coming gap.
A legal word is accepted, so that the next turn is its first action; an illegal one waits to be answered (log 7). -/
def State.placeRequest (s : State) (w : Word40) : State :=
  match decodeRequest w with
  | .ok _ => { s with pos := .idle, inputs := .ev 0 :: s.inputs }.accept w
  | .error _ => { s with pos := .idle, inputs := .ev 0 :: s.inputs, hostq := w :: s.hostq }

/-- The event word `w` is pulsed in the coming gap. -/
def State.placeEvent (s : State) (w : EventWord) : State := { s with inputs := .ev w :: s.inputs }

/-- The output `tick_out`: the current value of `TICK` (R93). -/
def State.tickOut (s : State) : Nat := s.tick

end Sys2Proof.Machine
end

