-- ==== Sys2Proof/Machine/PS2Controller.lean ====
section
/-! DEFINITION. The PS2Controller family: the status-polling engine, `PS2WR`, `PS2RD`, `PS2CMD`, `PS2FLUSH`, `PS2INIT` (R115 to R128).

A micro-routine is the atomic action at one of ITS labels. `at_` puts a label of it back into the caller's
position; `ret` is the caller's text after the call, which belongs to the action of the `return` (R8). -/

namespace Sys2Proof.Machine

/-- `poll_wait(mask, want, T)` (R115): condition first, expiry only if it failed (R105). -/
def pollWait (mask want : Byte) (ms : Word32) (l : PollPc) (at_ : PollPc → Position)
    (ret : Status → State → State) (s : State) : State :=
  match l with
  | .p0 => (s.setDeadline ms).goto (at_ .p1)
  | .p1 =>
    if s.readStatus.sreg &&& mask = want then ret .ok s.readStatus else s.readStatus.goto (at_ .p2)
  | .p2 => if s.expired s.dl then ret .timeout s else s.goto (at_ .p1)

/-- `write_to_device(b, arm)` (R116): wait for IBF = 0, write the data port; with `arm`, arm the slot (R142). -/
def writeToDevice (b : Byte) (arm : Bool) (l : WritePc) (at_ : WritePc → Position)
    (ret : Status → State → State) (s : State) : State :=
  match l with
  | .poll l => pollWait 0x02 0x00 s.par.tPollMs l (fun l => at_ (.poll l))
      (fun r s => if r = .timeout then ret .timeout s else s.goto (at_ .w1)) s
  | .w1 =>
    if arm then ret .ok ((s.ioWrite s.par.portPs2Data b).arm s.par.tAckMs)
    else ret .ok (s.ioWrite s.par.portPs2Data b)

/-- `read_from_device()` (R117): wait for OBF = 1, read the data port. -/
def readFromDevice (l : ReadPc) (at_ : ReadPc → Position)
    (ret : Status → Byte → State → State) (s : State) : State :=
  match l with
  | .poll l => pollWait 0x01 0x01 s.par.tPollMs l (fun l => at_ (.poll l))
      (fun r s => if r = .timeout then ret .timeout 0 s else s.goto (at_ .r1)) s
  | .r1 => ret .ok s.readData.cur s.readData

/-- `cmd_write(c)` (R118): wait for IBF = 0, write the command port. -/
def cmdWrite (c : Byte) (l : CmdPc) (at_ : CmdPc → Position)
    (ret : Status → State → State) (s : State) : State :=
  match l with
  | .poll l => pollWait 0x02 0x00 s.par.tPollMs l (fun l => at_ (.poll l))
      (fun r s => if r = .timeout then ret .timeout s else s.goto (at_ .k1)) s
  | .k1 => ret .ok (s.ioWrite s.par.portPs2StCmd c)

/-- `flush()` (R119). -/
def flush (l : FlushPc) (at_ : FlushPc → Position) (ret : Status → State → State) (s : State) : State :=
  match l with
  | .f0 => (s.setDeadline s.par.tFlushMs).goto (at_ .f1)
  | .f1 => if s.readStatus.sreg.getLsbD 0 then s.readStatus.goto (at_ .f2) else ret .ok s.readStatus
  | .f2 => if s.expired s.dl then ret .timeout s else s.goto (at_ .f3)
  | .f3 => s.readData.goto (at_ .f1)

/-- `ps2_init()` (R120, R121). -/
def ps2Init (l : InitPc) (at_ : InitPc → Position)
    (ret : Status → Word32 → State → State) (s : State) : State :=
  match l with
  | .i0 => ({ s with unresp := false }.setCtrl .uninit).goto (at_ (.flush .f0))
  | .flush l => flush l (fun l => at_ (.flush l))
      (fun r s => if r = .timeout then ret .timeout 0 s else s.goto (at_ .i1)) s
  | .i1 => (s.setCtrl .selfTestPending).goto (at_ (.selfCmd (.poll .p0)))
  | .selfCmd l => cmdWrite 0xAA l (fun l => at_ (.selfCmd l))
      (fun r s =>
        if r = .timeout then ret .timeout 0 (s.setCtrl .selfTestFailed)
        else s.goto (at_ (.selfRead (.poll .p0)))) s
  | .selfRead l => readFromDevice l (fun l => at_ (.selfRead l))
      (fun r b s =>
        if r = .timeout then ret .timeout 0 (s.setCtrl .selfTestFailed)
        else if b ≠ 0x55 then ret .controllerFault (pair32 0 b) (s.setCtrl .selfTestFailed)
        else (s.setCtrl .selfTestOk).goto (at_ .i2)) s
  | .i2 => (s.setCtrl .portTestPending).goto (at_ (.portCmd (.poll .p0)))
  | .portCmd l => cmdWrite 0xAB l (fun l => at_ (.portCmd l))
      (fun r s =>
        if r = .timeout then ret .timeout 0 (s.setCtrl .portFailed)
        else s.goto (at_ (.portRead (.poll .p0)))) s
  | .portRead l => readFromDevice l (fun l => at_ (.portRead l))
      (fun r b s =>
        if r = .timeout then ret .timeout 0 (s.setCtrl .portFailed)
        else if b ≠ 0x00 then ret .controllerFault (pair32 1 b) (s.setCtrl .portFailed)
        else (s.setCtrl .portReady).goto (at_ (.enable (.poll .p0)))) s
  | .enable l => cmdWrite 0xAE l (fun l => at_ (.enable l))
      (fun r s => if r = .timeout then ret .timeout 0 s else ret .ok 0 (s.setCtrl .deviceEnabled)) s

/-- `PS2WR byte` (R116): the slot is not armed (R210). -/
def execPs2wr (byte : Byte) (s : State) : Result :=
  match positionFor (.ps2wr byte) s.pos with
  | some (.ps2wr l) => .next (writeToDevice byte false l .ps2wr (fun r s => s.respond r 0) s)
  | _ => .refused .operationInProgress

/-- `PS2RD` (R117). -/
def execPs2rd (s : State) : Result :=
  match positionFor .ps2rd s.pos with
  | some (.ps2rd l) => .next (readFromDevice l .ps2rd (fun r b s => s.respond r (zext32 b)) s)
  | _ => .refused .operationInProgress

/-- `PS2FLUSH` (R119). -/
def execPs2flush (s : State) : Result :=
  match positionFor .ps2flush s.pos with
  | some (.ps2flush l) => .next (flush l .ps2flush (fun r s => s.respond r 0) s)
  | _ => .refused .operationInProgress

/-- `PS2CMD cmd` (R118). -/
def execPs2cmd (cmd : Byte) (s : State) : Result :=
  match positionFor (.ps2cmd cmd) s.pos with
  | some (.ps2cmd l) => .next (cmdWrite cmd l .ps2cmd (fun r s => s.respond r 0) s)
  | _ => .refused .operationInProgress

/-- `PS2INIT` (R121). -/
def execPs2init (s : State) : Result :=
  match positionFor .ps2init s.pos with
  | some (.ps2init l) => .next (ps2Init l .ps2init (fun st v s => s.respond st v) s)
  | _ => .refused .operationInProgress

end Sys2Proof.Machine
end

