-- ==== Sys2Proof/Machine/PS2Device.lean ====
section
/-! DEFINITION. The PS2Device family: `KBD_BYTE`, `SENDCMD`, `SCANPOP` (R140 to R154). -/

namespace Sys2Proof.Machine

/-- The handler of the keyboard interrupt: one read of the data port, recorded as `kbd(b)`, and the routing of
the byte (R140, R202). -/
def kbdByteBody (s : State) : State :=
  (s.afterAnswer.record (.kbd (s.envAnswer s.par.portPs2Data))).routeByte (s.envAnswer s.par.portPs2Data)

/-- `KBD_BYTE`: `[q1]`, at any sequencer position (R140). -/
def execKbdByte (s : State) : Result := .next (s.takeEvent s.par.irqKbd kbdByteBody)

/-- `[s1]`, slot `Acked` (R141, R144): the next byte, or success; with `rearm` the slot is armed again for `T_BAT_MS` (R161). -/
def ackedAction (bytes : List Byte) (rearm : Bool) (at_ : SendPc → Position)
    (ret : Status → Word32 → State → State) (s : State) : State :=
  if s.idx = bytes.length - 1 then
    if rearm then ret .ok 0 (s.arm s.par.tBatMs) else ret .ok 0 (s.setAck .idle)
  else { s.setAck .idle with idx := s.idx + 1, retries := 0 }.goto (at_ (.write (.poll .p0)))

/-- `[s1]`, slot `Resend` (R141, R145, R148): the same byte again, or the latch with `{0xFE, opcode}`. -/
def resendAction (bytes : List Byte) (at_ : SendPc → Position)
    (ret : Status → Word32 → State → State) (s : State) : State :=
  if s.retries = s.par.maxRetries then
    ret .deviceUnresponsive (pair32 0xFE (bytes.getD 0 0))
      ((s.setAck .idle).latch .deviceUnresponsive (pair32 0xFE (bytes.getD 0 0)))
  else { s.setAck .idle with retries := s.retries + 1 }.goto (at_ (.write (.poll .p0)))

/-- `[s1]` (R141, R143): a deposited byte is examined before the deadline. `Idle` and `TimedOut` are no case of
the rule and do not occur here; the action then leaves the state as it is (log 13). -/
def awaitAction (bytes : List Byte) (rearm : Bool) (at_ : SendPc → Position)
    (ret : Status → Word32 → State → State) (s : State) : State :=
  match s.ackState with
  | .pending => if s.expired s.dl then (s.setAck .timedOut).goto (at_ .s2) else s.goto (at_ .s1)
  | .acked => ackedAction bytes rearm at_ ret s
  | .resend => resendAction bytes at_ ret s
  | .desync => (s.setAck .idle).goto (at_ .s3)
  | .idle => s
  | .timedOut => s

/-- `send_command(bytes, rearm)` (R141). `bytes` is never empty, and `IDX` is an index of it (log 13). -/
def sendCommand (bytes : List Byte) (rearm : Bool) (l : SendPc) (at_ : SendPc → Position)
    (ret : Status → Word32 → State → State) (s : State) : State :=
  match l with
  | .s0 =>
    if s.unresp then ret s.latchStatus s.latchValue s
    else { s with idx := 0, retries := 0 }.goto (at_ (.write (.poll .p0)))
  | .write l => writeToDevice (bytes.getD s.idx 0) true l (fun l => at_ (.write l))
      (fun r s => if r = .timeout then ret .timeout 0 (s.latch .timeout 0) else s.goto (at_ .s1)) s
  | .s1 => awaitAction bytes rearm at_ ret s
  | .s2 => ret .timeout 0 ((s.setAck .idle).latch .timeout 0)
  | .s3 => s.goto (at_ (.flush .f0))
  | .flush l => flush l (fun l => at_ (.flush l))
      (fun r s =>
        if r = .timeout then ret .protocolError (zext32 s.ackByte) (s.latch .timeout 0)
        else ret .protocolError (zext32 s.ackByte) s) s

/-- `SENDCMD` (R141). -/
def execSendcmd (nargs : BitVec 2) (arg1 arg0 opcode : Byte) (s : State) : Result :=
  match positionFor (.sendcmd nargs arg1 arg0 opcode) s.pos with
  | some (.sendcmd l) => .next
      (sendCommand (commandBytes nargs arg1 arg0 opcode) false l .sendcmd (fun st v s => s.respond st v) s)
  | _ => .refused .operationInProgress

/-- `[o1]` (R151). -/
def scanpopAction (s : State) : State :=
  match s.scanq with
  | [] => s.respond .empty 0
  | b :: rest => { s with scanq := rest }.respond .ok (zext32 b)

/-- `SCANPOP` (R151). -/
def execScanpop (s : State) : Result :=
  match positionFor .scanpop s.pos with
  | some .scanpop => .next (scanpopAction s)
  | _ => .refused .operationInProgress

end Sys2Proof.Machine
end

