-- ==== Sys2Proof/Machine/Keyboard.lean ====
section
/-! DEFINITION. The KeyboardDriver family: `KBDINIT` (R160 to R166). -/

namespace Sys2Proof.Machine

/-- `[b1]`, the wait for `0xAA` (R160, R161): only `ACK_BYTE` counts, not its classification. -/
def batAction (s : State) : State :=
  match s.ackState with
  | .pending => if s.expired s.dl then (s.setAck .timedOut).goto (.kbdinit .b2) else s.goto (.kbdinit .b1)
  | .idle | .acked | .resend | .timedOut | .desync =>
    if s.ackByte = 0xAA then (s.setAck .idle).goto (.kbdinit (.enable .s0))
    else (s.setAck .idle).goto (.kbdinit .b3)

/-- The atomic action of `KBDINIT` at a label (R160). -/
def kbdinitAction (l : KbdPc) (s : State) : State :=
  match l with
  | .init l => ps2Init l (fun l => .kbdinit (.init l))
      (fun st v s => if st = .ok then s.goto (.kbdinit (.reset .s0)) else s.respond st v) s
  | .reset l => sendCommand [0xFF] true l (fun l => .kbdinit (.reset l))
      (fun st v s => if st = .ok then s.goto (.kbdinit .b1) else s.respond st v) s
  | .b1 => batAction s
  | .b2 => ((s.setAck .idle).latch .timeout 0).respond .timeout 0
  | .b3 => s.goto (.kbdinit (.flush .f0))
  | .flush l => flush l (fun l => .kbdinit (.flush l))
      (fun r s =>
        if r = .timeout then (s.latch .timeout 0).respond .protocolError (zext32 s.ackByte)
        else s.respond .protocolError (zext32 s.ackByte)) s
  | .enable l => sendCommand [0xF4] false l (fun l => .kbdinit (.enable l)) (fun st v s => s.respond st v) s

/-- `KBDINIT` (R160). -/
def execKbdinit (s : State) : Result :=
  match positionFor .kbdinit s.pos with
  | some (.kbdinit l) => .next (kbdinitAction l s)
  | _ => .refused .operationInProgress

end Sys2Proof.Machine
end

