-- ==== Sys2Proof/Machine/TickClock.lean ====
section
/-! DEFINITION. The TickClock family: `CLKINIT`, `ADVANCE_TICK`, `GETTICK` (R90 to R96). -/

namespace Sys2Proof.Machine

/-- `[c1]`: both clamps, `FREQ` and `DIVISOR`, the control word (R90). -/
def clkinitConfigure (freq : Word32) (s : State) : State :=
  { s with
    freq := BitVec.ofNat 32 (s.clampFreq freq)
    divisor := BitVec.ofNat 17 (s.divisorFor (s.clampFreq freq)) }.ioWrite s.par.portPitCtrl s.par.pitCw

/-- The atomic action of `CLKINIT` at a label (R90); low byte, then high byte of the divisor (R58, R80). -/
def clkinitAction (freq : Word32) (l : ClkPc) (s : State) : State :=
  match l with
  | .c1 => (clkinitConfigure freq s).goto (.clkinit .c2)
  | .c2 => (s.ioWrite s.par.portPitCh0 (s.divisor.extractLsb' 0 8)).goto (.clkinit .c3)
  | .c3 => (s.ioWrite s.par.portPitCh0 (s.divisor.extractLsb' 8 8)).goto (.clkinit .c4)
  | .c4 => { s with tick := 0 }.respond .ok (s.divisor.zeroExtend 32)

/-- `CLKINIT freq` (R90). -/
def execClkinit (freq : Word32) (s : State) : Result :=
  match positionFor (.clkinit freq) s.pos with
  | some (.clkinit l) => .next (clkinitAction freq l s)
  | _ => .refused .operationInProgress

/-- `GETTICK`: `[g1] respond(Ok, zext_32(TICK))` (R92). -/
def execGettick (s : State) : Result :=
  match positionFor .gettick s.pos with
  | some .gettick => .next (s.respond .ok (tick32 s.tick))
  | _ => .refused .operationInProgress

/-- The handler of the timer interrupt: `TICK <- (TICK + 1) mod 2^W` (R91, R201). -/
def advanceTickBody (s : State) : State := { s.record .tick with tick := (s.tick + 1) % s.modulus }

/-- `ADVANCE_TICK`: `[t1] TICK <- (TICK + 1) mod 2^W ; eoi(IRQ_TIMER)`, at any sequencer position (R91). -/
def execAdvanceTick (s : State) : Result := .next (s.takeEvent s.par.irqTimer advanceTickBody)

end Sys2Proof.Machine
end

