-- ==== Sys2Proof/Machine/Timeout.lean ====
section
/-! DEFINITION. The Timeout family: `DEADLINE`, `EXPIRED`, `SLEEP` (R100 to R110). -/

namespace Sys2Proof.Machine

/-- `DEADLINE ms`: `[d1] respond(Ok, zext_32((TICK + delta(ms)) mod 2^W))` (R101). -/
def execDeadline (ms : Word32) (s : State) : Result :=
  match positionFor (.deadline ms) s.pos with
  | some .deadline => .next (s.respond .ok (tick32 (s.deadlineIn ms)))
  | _ => .refused .operationInProgress

/-- `EXPIRED deadline`: `[e1] respond(Ok, 1 if expired(operand mod 2^W) else 0)` (R103). -/
def execExpired (deadline : Word32) (s : State) : Result :=
  match positionFor (.expired deadline) s.pos with
  | some .expired => .next (s.respond .ok (if s.expired (deadline.toNat % s.modulus) then 1 else 0))
  | _ => .refused .operationInProgress

/-- The atomic action of `SLEEP` at a label (R104). -/
def sleepAction (ms : Word32) (l : SleepPc) (s : State) : State :=
  match l with
  | .s0 => (s.setDeadline ms).goto (.sleep .s1)
  | .s1 => if s.expired s.dl then s.respond .ok 0 else s.goto (.sleep .s1)

/-- `SLEEP ms` (R104). -/
def execSleep (ms : Word32) (s : State) : Result :=
  match positionFor (.sleep ms) s.pos with
  | some (.sleep l) => .next (sleepAction ms l s)
  | _ => .refused .operationInProgress

end Sys2Proof.Machine
end

