-- ==== Sys2Proof/Machine/Dispatch.lean ====
section
/-! DEFINITION. One arm per instruction. -/

namespace Sys2Proof.Machine

def exec (i : Instr) (s : State) : Host.Outcome State Fault Refusal :=
  match i with
  -- TickClock
  | .clkinit freq => Sys2Proof.Machine.execClkinit freq s
  | .gettick => Sys2Proof.Machine.execGettick s
  -- Timeout
  | .deadline ms => Sys2Proof.Machine.execDeadline ms s
  | .expired deadline => Sys2Proof.Machine.execExpired deadline s
  | .sleep ms => Sys2Proof.Machine.execSleep ms s
  -- PS2Controller
  | .ps2wr byte => Sys2Proof.Machine.execPs2wr byte s
  | .ps2rd => Sys2Proof.Machine.execPs2rd s
  | .ps2flush => Sys2Proof.Machine.execPs2flush s
  | .ps2cmd cmd => Sys2Proof.Machine.execPs2cmd cmd s
  | .ps2init => Sys2Proof.Machine.execPs2init s
  -- PS2Device
  | .sendcmd nargs arg1 arg0 opcode => Sys2Proof.Machine.execSendcmd nargs arg1 arg0 opcode s
  | .scanpop => Sys2Proof.Machine.execScanpop s
  -- KeyboardDriver
  | .kbdinit => Sys2Proof.Machine.execKbdinit s
  -- events
  | .advanceTick => Sys2Proof.Machine.execAdvanceTick s
  | .kbdByte => Sys2Proof.Machine.execKbdByte s

end Sys2Proof.Machine
end

