-- ==== Sys2Proof/Machine/Step.lean ====
section
/-! DEFINITION. One step: one agent moves (R7, R8). -/

namespace Sys2Proof.Machine

/-- One step of the machine. -/
def step (s : State) : Host.Outcome State Fault Refusal :=
  match s.turn with
  | .done t => .next t
  | .run i t => exec i t
  | .lost => .fault .noLegalRequest

/-- The state in which the very next step runs the instruction whose table bits are `w` (log 7, log 16):
a row of 40 bits is presented on the request channel and accepted, a shorter one pulses the event lines. -/
def State.withFetchWord (s : State) (nbits w : Nat) : State :=
  if 40 ≤ nbits then s.placeRequest (BitVec.ofNat 40 w) else s.placeEvent (BitVec.ofNat 2 w)

end Sys2Proof.Machine
end

