-- ==== Sys2Proof/Safety.lean ====
section
/-! DEFINITION. What claims about runs are stated in: the invariant, runs of instructions, port accesses, response counts. -/

namespace Sys2Proof.Safety

open Sys2Proof Sys2Proof.Machine

/-! ### Runs -/

/-- The instructions of the list run one after the other, each answering a next state: consecutive atomic
actions of `SEQ` with events between them (R8). -/
def Runs : List Instr → State → State → Prop
  | [], s, t => s = t
  | i :: rest, s, t => ∃ u, exec i s = .next u ∧ Runs rest u t

/-- `k` times the list `is`, one after the other. -/
def repeated (k : Nat) (is : List Instr) : List Instr := (List.replicate k is).flatten

/-- `k` times the bytes `bs`, one after the other: what the environment answers. -/
def repeatedBytes (k : Nat) (bs : List Byte) : List Byte := (List.replicate k bs).flatten

/-- Instruction `i` can begin: the sequencer is idle (log 8), or stands at `i`'s first label. -/
abbrev Ready (i : Instr) (s : State) : Prop := s.pos = .idle ∨ s.pos = entryOf i

/-- No event is due in this gap: nothing is lined up, or an event word with no bit set (R72). -/
abbrev Quiet (s : State) : Prop := s.inputs = [] ∨ s.inputs.head? = some (.ev 0)

/-- The event word of this gap has been sampled. -/
def sampled (s : State) : State := { s with inputs := s.inputs.tail }

/-- `is` is `n` actions of `i` with tick events between them, in any order. -/
def Ticked (i : Instr) (n : Nat) (is : List Instr) : Prop :=
  (∀ j ∈ is, j = i ∨ j = .advanceTick) ∧ is.count i = n

/-! ### The shared routines and where they run -/

/-- `i` runs `send_command` on `bytes`, its labels at the positions `pos`: `SENDCMD` (R141), or `KBDINIT` for its
`0xFF` or its `0xF4` command (R160). -/
def Sends (i : Instr) (bytes : List Byte) (pos : SendPc → Position) : Prop :=
  (∃ nargs arg1 arg0 opcode, i = .sendcmd nargs arg1 arg0 opcode ∧
    bytes = commandBytes nargs arg1 arg0 opcode ∧ pos = .sendcmd) ∨
  (i = .kbdinit ∧ bytes = [0xFF] ∧ pos = fun l => .kbdinit (.reset l)) ∨
  (i = .kbdinit ∧ bytes = [0xF4] ∧ pos = fun l => .kbdinit (.enable l))

/-- `i` runs `ps2_init`, its labels at the positions `pos`: `PS2INIT` (R121) or `KBDINIT` (R160). -/
def BringsUp (i : Instr) (pos : InitPc → Position) : Prop :=
  (i = .ps2init ∧ pos = .ps2init) ∨ (i = .kbdinit ∧ pos = fun l => .kbdinit (.init l))

/-- `k + 1` attempts at one byte of a command by `i`, each with a free input buffer and a reply before `[s1]`. -/
def attempts (i : Instr) (k : Nat) : List Instr := repeated (k + 1) (List.replicate 3 i ++ [.kbdByte, i])

/-- What the environment answers to `k + 1` attempts: the status byte and RESEND `k` times, then the status byte and ACK. -/
def resendsThenAck (st : Byte) (k : Nat) : List Byte := repeatedBytes k [st, 0xFE] ++ [st, 0xFA]

/-- The writes of a command's bytes, the byte at each index `k + 1` times for the `k` at that index of `ks`, newest first. -/
def commandWrites (p : Config.Params) (bytes : List Byte) (ks : List Nat) : List TraceEvent :=
  ((bytes.zip ks).flatMap (fun x => List.replicate (x.2 + 1) (.ioW p.portPs2Data x.1))).reverse

/-- `s` after the response `(Timeout, 0)`. -/
def timedOut (s : State) : State :=
  { s with rsp := 0x01#8 ++ (0 : Word32), pos := .idle, trace := .rsp .timeout 0 :: s.trace }

/-- `s` after the response `(ProtocolError, ACK_BYTE)`. -/
def desynchronized (s : State) : State :=
  { s with
    rsp := 0x02#8 ++ (0 : BitVec 24) ++ s.ackByte, pos := .idle,
    trace := .rsp .protocolError ((0 : BitVec 24) ++ s.ackByte) :: s.trace }

/-- `s` with the device latched by a timeout (R149). -/
def latchedByTimeout (s : State) : State := { s with unresp := true, latchStatus := .timeout, latchValue := 0 }

/-- `s` after a wait of no ticks is begun and the status read once, which gave `st`. -/
def polledOnce (s : State) (st : Byte) : State :=
  { s with dl := s.tick, sreg := st, envq := s.envq.tail, trace := .ioR s.par.portPs2StCmd st :: s.trace }

/-! ### Illegal requests, from the numbers of the word alone (R76) -/

/-- The operation number of a request word. -/
def opNumber (w : Word40) : Nat := w.toNat / 2 ^ 32

/-- The operand of a request word. -/
def operandNumber (w : Word40) : Nat := w.toNat % 2 ^ 32

/-- R76: an unknown `op`; a must-be-zero operand bit that is 1; `SENDCMD` with `nargs = 3` or `dev = 1`;
`PS2CMD` with a `cmd` outside the set of R82. -/
def IllegalRequest (w : Word40) : Prop :=
  opNumber w ∉ [0x01, 0x02, 0x10, 0x11, 0x12, 0x20, 0x21, 0x22, 0x23, 0x24, 0x30, 0x31, 0x40] ∨
  (opNumber w ∈ [0x02, 0x21, 0x22, 0x24, 0x31, 0x40] ∧ operandNumber w ≠ 0) ∨
  (opNumber w ∈ [0x20, 0x23] ∧ operandNumber w / 2 ^ 8 ≠ 0) ∨
  (opNumber w = 0x30 ∧ (operandNumber w / 2 ^ 27 ≠ 0 ∨ operandNumber w / 2 ^ 26 % 2 = 1 ∨
    operandNumber w / 2 ^ 24 % 4 = 3)) ∨
  (opNumber w = 0x23 ∧ operandNumber w % 2 ^ 8 ∉ [0xAA, 0xAB, 0xA9, 0xAE, 0xAD])

/-! ### The event history -/

/-- An access to the I/O port space; `kbd(b)` is the record of the handler's one read (R140, log 10). -/
def isPortAccess : TraceEvent → Bool
  | .ioR _ _ => true
  | .ioW _ _ => true
  | .kbd _ => true
  | .req _ => false
  | .rsp _ _ => false
  | .tick => false
  | .eoi _ => false

/-- A `req` entry. -/
def isRequest : TraceEvent → Bool
  | .req _ => true
  | .rsp _ _ | .ioR _ _ | .ioW _ _ | .tick | .kbd _ | .eoi _ => false

/-- A `rsp` entry. -/
def isResponse : TraceEvent → Bool
  | .rsp _ _ => true
  | .req _ | .ioR _ _ | .ioW _ _ | .tick | .kbd _ | .eoi _ => false

/-- A write of the data port. -/
def isDataWrite (p : Config.Params) : TraceEvent → Bool
  | .ioW q _ => q == p.portPs2Data
  | .req _ | .rsp _ _ | .ioR _ _ | .tick | .kbd _ | .eoi _ => false

/-- 1 while an operation is in progress, 0 while the sequencer is idle. -/
def inProgress (s : State) : Nat := if s.pos = .idle then 0 else 1

/-- The port accesses R51, R52, R82 and R84 give each instruction. -/
def PermittedAccess (p : Config.Params) (i : Instr) : TraceEvent → Prop
  | .ioR q _ =>
    match i with
    | .ps2wr _ | .ps2cmd _ => q = p.portPs2StCmd
    | .ps2rd | .ps2flush | .ps2init | .sendcmd _ _ _ _ | .kbdinit => q = p.portPs2StCmd ∨ q = p.portPs2Data
    | .clkinit _ | .gettick | .deadline _ | .expired _ | .sleep _ | .scanpop | .advanceTick | .kbdByte => False
  | .ioW q b =>
    match i with
    | .clkinit _ => (q = p.portPitCtrl ∧ b = p.pitCw) ∨ q = p.portPitCh0
    | .ps2wr byte => q = p.portPs2Data ∧ b = byte
    | .ps2cmd cmd => q = p.portPs2StCmd ∧ b = cmd
    | .ps2init => q = p.portPs2StCmd ∧ (b = 0xAA ∨ b = 0xAB ∨ b = 0xAE)
    | .sendcmd _ _ _ _ => q = p.portPs2Data
    | .kbdinit => (q = p.portPs2StCmd ∧ (b = 0xAA ∨ b = 0xAB ∨ b = 0xAE)) ∨ q = p.portPs2Data
    | .gettick | .deadline _ | .expired _ | .sleep _ | .ps2rd | .ps2flush | .scanpop | .advanceTick
    | .kbdByte => False
  | .kbd _ => i = .kbdByte
  | .req _ | .rsp _ _ | .tick | .eoi _ => True

/-! ### The invariant -/

/-- `ACK_STATE` at a label of `send_command`: a response is awaited or has come at `[s1]`, `TimedOut` at `[s2]`, else `Idle` (R147). -/
def slotAtSend (l : SendPc) (a : AckState) : Prop :=
  match l with
  | .s1 => a ≠ .idle ∧ a ≠ .timedOut
  | .s2 => a = .timedOut
  | .s0 | .write _ | .s3 | .flush _ => a = .idle

/-- `ACK_STATE` at a position; `Idle` whenever `OP = IDLE` (R154). -/
def slotAt (p : Position) (a : AckState) : Prop :=
  match p with
  | .sendcmd l => slotAtSend l a
  | .kbdinit (.reset l) => slotAtSend l a
  | .kbdinit (.enable l) => slotAtSend l a
  | .kbdinit .b1 => a ≠ .idle ∧ a ≠ .timedOut
  | .kbdinit .b2 => a = .timedOut
  | .kbdinit .b3 | .kbdinit (.init _) | .kbdinit (.flush _) => a = .idle
  | .idle | .clkinit _ | .gettick | .deadline | .expired | .sleep _ | .ps2wr _ | .ps2rd _ | .ps2flush _
  | .ps2cmd _ | .ps2init _ | .scanpop => a = .idle

/-- The label of `ps2_init` a position stands at, if it stands in that micro-routine. -/
def initLabel : Position → Option InitPc
  | .ps2init l => some l
  | .kbdinit (.init l) => some l
  | _ => none

/-- `CTRL_STATE` at a label of `ps2_init` (R120, R121). -/
def ctrlAtInit (l : InitPc) (c : CtrlState) : Prop :=
  match l with
  | .i0 => True
  | .flush _ | .i1 => c = .uninit
  | .selfCmd _ | .selfRead _ => c = .selfTestPending
  | .i2 => c = .selfTestOk
  | .portCmd _ | .portRead _ => c = .portTestPending
  | .enable _ => c = .portReady

/-- `CTRL_STATE` at a position: in `KBDINIT` after the bring-up it is `DeviceEnabled`. -/
def ctrlAt (p : Position) (c : CtrlState) : Prop :=
  match p with
  | .ps2init l => ctrlAtInit l c
  | .kbdinit (.init l) => ctrlAtInit l c
  | .kbdinit (.reset _) | .kbdinit .b1 | .kbdinit .b2 | .kbdinit .b3 | .kbdinit (.flush _)
  | .kbdinit (.enable _) => c = .deviceEnabled
  | _ => True

/-- Whether the device is known to be usable at a position: after `[i0]` and after `[s0]` (R121, R141). -/
def usableAt (p : Position) (unresp : Bool) : Prop :=
  match p with
  | .ps2init .i0 | .kbdinit (.init .i0) | .sendcmd .s0 => True
  | .ps2init _ | .kbdinit _ | .sendcmd _ => unresp = false
  | _ => True

/-- The label of `send_command` a position stands at, if it stands in that micro-routine. -/
def sendLabel : Position → Option SendPc
  | .sendcmd l => some l
  | .kbdinit (.reset l) => some l
  | .kbdinit (.enable l) => some l
  | _ => none

/-- How many bytes the command in progress has: those of the request for `SENDCMD`, one for the commands of `KBDINIT`. -/
def commandLength (s : State) : Nat :=
  match s.pos, decodeRequest s.req with
  | .sendcmd _, .ok (.sendcmd nargs arg1 arg0 opcode) => (commandBytes nargs arg1 arg0 opcode).length
  | _, _ => 1

/-- The invariant of every run. -/
structure Inv (s : State) : Prop where
  /-- The parameters are in the ranges of R6. -/
  params : s.par.Ok
  /-- `TICK` has `W` bits (R21). -/
  tick : s.tick < s.modulus
  /-- `DL` has `W` bits (R28). -/
  dl : s.dl < s.modulus
  /-- `FREQ` and `DIVISOR` are both unset, or `1 <= FREQ <= OSC_HZ` and `DIVISOR` is the clamped quotient (R22, R23). -/
  clock : (s.freq = 0 ∧ s.divisor = 0) ∨
    (1 ≤ s.freq.toNat ∧ s.freq.toNat ≤ s.par.oscHz.toNat ∧
      s.divisor.toNat = min (s.par.oscHz.toNat / s.freq.toNat) 65536)
  /-- `SCANQ` is no longer than `SCANQ_CAP` (R27). -/
  queue : ∀ cap, s.par.scanqCap = some cap → s.scanq.length ≤ cap
  /-- `OVERRUN` never becomes 1 when `SCANQ_CAP` is unbounded (R27). -/
  overrun : s.overrun = true → s.par.scanqCap ≠ none
  /-- What latches the device is a command timeout or resend exhaustion (R149). -/
  latch : s.unresp = true → (s.latchStatus = .timeout ∧ s.latchValue = 0) ∨
    (s.latchStatus = .deviceUnresponsive ∧ ∃ opcode : Byte, s.latchValue = pair32 0xFE opcode)
  /-- The slot is at rest wherever no response is awaited (R154). -/
  slot : slotAt s.pos s.ackState
  /-- `CTRL_STATE` is the state the bring-up has reached (R120). -/
  ctrl : ctrlAt s.pos s.ctrlState
  /-- A command past its first action, and a bring-up past its first action, run with `UNRESP = 0`. -/
  usable : usableAt s.pos s.unresp
  /-- An operation in progress is the one `REQ` holds (R65). -/
  request : s.pos ≠ .idle → ∃ i, decodeRequest s.req = .ok i ∧ opOf i = s.pos.op
  /-- In `send_command`, `IDX` is an index of the command's bytes and `RETRIES <= MAX_RETRIES` (R28, R148). -/
  command : ∀ l, sendLabel s.pos = some l → l ≠ .s0 → s.idx < commandLength s ∧ s.retries ≤ s.par.maxRetries

/-! ### Which sequencer locals are live -/

/-- A wait is in progress whose deadline is still to be tested. -/
def pollLive : PollPc → Bool
  | .p0 => false
  | .p1 | .p2 => true

/-- As `pollLive`, in `write_to_device`. -/
def writeLive : WritePc → Bool
  | .poll l => pollLive l
  | .w1 => false

/-- As `pollLive`, in `read_from_device`. -/
def readLive : ReadPc → Bool
  | .poll l => pollLive l
  | .r1 => false

/-- As `pollLive`, in `cmd_write`. -/
def cmdLive : CmdPc → Bool
  | .poll l => pollLive l
  | .k1 => false

/-- As `pollLive`, in `flush`. -/
def flushLive : FlushPc → Bool
  | .f0 => false
  | .f1 | .f2 | .f3 => true

/-- As `pollLive`, in `ps2_init`. -/
def initLive : InitPc → Bool
  | .i0 | .i1 | .i2 => false
  | .flush l => flushLive l
  | .selfCmd l | .portCmd l | .enable l => cmdLive l
  | .selfRead l | .portRead l => readLive l

/-- As `pollLive`, in `send_command`. -/
def sendLive : SendPc → Bool
  | .s0 | .s2 | .s3 => false
  | .s1 => true
  | .write l => writeLive l
  | .flush l => flushLive l

/-- `DL` has been written by the wait in progress and may still be read. -/
def deadlineLive : Position → Bool
  | .sleep .s1 => true
  | .ps2wr l => writeLive l
  | .ps2rd l => readLive l
  | .ps2flush l => flushLive l
  | .ps2cmd l => cmdLive l
  | .ps2init l => initLive l
  | .sendcmd l => sendLive l
  | .kbdinit (.init l) => initLive l
  | .kbdinit (.reset l) | .kbdinit (.enable l) => sendLive l
  | .kbdinit .b1 => true
  | .kbdinit (.flush l) => flushLive l
  | .kbdinit .b2 | .kbdinit .b3 => false
  | .idle | .clkinit _ | .gettick | .deadline | .expired | .sleep .s0 | .scanpop => false

/-- `IDX` and `RETRIES` have been written by the command in progress. -/
def countersLive (p : Position) : Bool :=
  match sendLabel p with
  | some .s0 => false
  | some _ => true
  | none => false

/-- The state `s` with other values in the sequencer locals. -/
def withLocals (s : State) (dl : Nat) (cur : Byte) (idx retries : Nat) (sreg : Byte) : State :=
  { s with dl := dl, cur := cur, idx := idx, retries := retries, sreg := sreg }

end Sys2Proof.Safety
end

