-- ==== Sys2Proof/Certificates/Slice0/Obligations.lean ====
section
/-! DEFINITION. The statements for the provers, from the numbered rules of spec/.

Three conventions of the model stand in many of them: `exec` on an idle block runs the first action (log 8), the
environment's next answers are `envq` (log 4), and the event history is `trace`, newest first (log 10). -/

open Sys2Proof Sys2Proof.Machine Sys2Proof.Safety

/-! ### Encoding -/

/-- Decoding the encoding of a well-formed instruction gives it back, for every operand value (R70, R72 to R75). -/
def Obligations.DecodeOfEncode : Prop :=
  ∀ i : Instr, i.WellFormed → decode (encode i) = .ok i

/-- A word that decodes is the encoding of the well-formed instruction it decodes to: each legal word has one meaning. -/
def Obligations.LegalWordsAreEncodings : Prop :=
  ∀ (c : Code) (i : Instr), decode c = .ok i → encode i = c ∧ i.WellFormed

/-- Words written out from R73 to R75, one of each family and both events, decode to what they stand for. -/
def Obligations.WrittenWordsDecode : Prop :=
  decode (.request 0x0100000064) = .ok (.clkinit 100) ∧
  decode (.request 0x1000000019) = .ok (.deadline 25) ∧
  decode (.request 0x23000000AD) = .ok (.ps2cmd 0xAD) ∧
  decode (.request 0x3002332211) = .ok (.sendcmd 2 0x33 0x22 0x11) ∧
  decode (.request 0x4000000000) = .ok .kbdinit ∧
  decode (.event 1) = .ok .advanceTick ∧
  decode (.event 2) = .ok .kbdByte

/-- R76: a request is illegal exactly in the listed cases, and an illegal request presented to the idle block is
answered at once with `respond(IllegalOp, operand)`: nothing but `REQ`, `RSP` changes, no port is touched
(`hostq` and `inputs` are what HOST and the events had lined up, log 7; `trace` is the record). -/
def Obligations.IllegalRequestAnswered : Prop :=
  (∀ w : Word40, (∃ e, decodeRequest w = .error e) ↔ IllegalRequest w) ∧
  ∀ (s : State) (w : Word40) (rest : List Word40),
    s.pos = .idle → Quiet s → s.hostq = w :: rest → IllegalRequest w →
    step s = .next { sampled s with
      hostq := rest, req := w, rsp := 0x0F#8 ++ BitVec.ofNat 32 (operandNumber w),
      trace := .rsp .illegalOp (BitVec.ofNat 32 (operandNumber w)) :: .req w :: s.trace }

/-! ### Steps -/

/-- While an operation is in progress and no event is due, a step is `exec` of the instruction `REQ` decodes to,
at the sequencer's position; the step adds only the sampling of the event word. -/
def Obligations.StepRunsDecodedRequest : Prop :=
  ∀ (s : State) (i : Instr), s.pos ≠ .idle → Quiet s → decode (.request s.req) = .ok i →
    step s = exec i (sampled s)

/-- When exactly one event is pulsed, a step is `exec` of that event, at every sequencer position. -/
def Obligations.StepRunsDecodedEvent : Prop :=
  ∀ (s : State) (w : EventWord) (rest : List Input) (i : Instr),
    s.inputs = .ev w :: rest → decode (.event w) = .ok i → step s = exec i { s with inputs := rest }

/-- A legal request presented to the idle block is latched in `REQ`; its operation's first label is next, and
nothing else changes (R9, R28, R29, R31). The idle block with no request and no event stays as it is. That acceptance
is a step of its own, in which no action runs, is the model's choice (log 7): R9 and R31 do not count the steps. -/
def Obligations.LegalRequestAccepted : Prop :=
  (∀ s : State, s.pos = .idle → Quiet s → s.hostq = [] → step s = .next (sampled s)) ∧
  ∀ (s : State) (w : Word40) (rest : List Word40),
    s.pos = .idle → Quiet s → s.hostq = w :: rest → ¬ IllegalRequest w →
    ∃ i, decode (.request w) = .ok i ∧ i.WellFormed ∧
      step s = .next { sampled s with hostq := rest, req := w, pos := entryOf i, trace := .req w :: s.trace }

/-- R9: while an operation is in progress no request is accepted, whatever happens in the step. -/
def Obligations.BusyBlockAcceptsNoRequest : Prop :=
  ∀ s t : State, s.pos ≠ .idle → step s = .next t →
    t.hostq = s.hostq ∧ ∃ es, t.trace = es ++ s.trace ∧ es.countP isRequest = 0

/-- R179: when both events are pulsed in one gap, two steps run both, one after the other; in whichever order they
run, the resulting states differ in the event history alone. -/
def Obligations.SimultaneousEventsBothOccur : Prop :=
  ∀ (s : State) (rest : List Input), s.inputs = .ev 3 :: rest →
    ∃ a ab b ba : State,
      exec .advanceTick { s with inputs := rest, draws := s.draws + 1 } = .next a ∧ exec .kbdByte a = .next ab ∧
      exec .kbdByte { s with inputs := rest, draws := s.draws + 1 } = .next b ∧ exec .advanceTick b = .next ba ∧
      { ab with trace := ba.trace } = ba ∧
      ∃ u v, step s = .next u ∧ step u = .next v ∧ (v = ab ∨ v = ba)

/-- R36: the values after reset that the table gives, for every choice of the parameters and for `State.reset`. -/
def Obligations.ResetValues : Prop :=
  (∃ p, State.reset = State.resetOf p) ∧
  ∀ p : Config.Params, (State.resetOf p).par = p ∧
    (State.resetOf p).tick = 0 ∧ (State.resetOf p).freq = 0 ∧ (State.resetOf p).divisor = 0 ∧
    (State.resetOf p).ctrlState = .uninit ∧ (State.resetOf p).unresp = false ∧
    (State.resetOf p).latchStatus.code = 0 ∧ (State.resetOf p).latchValue = 0 ∧
    (State.resetOf p).ackState = .idle ∧ (State.resetOf p).ackByte = 0 ∧
    (State.resetOf p).scanq = [] ∧ (State.resetOf p).overrun = false ∧
    (State.resetOf p).pos.op = .idle ∧ (State.resetOf p).req = 0 ∧ (State.resetOf p).rsp = 0

/-- R195: the reset input gives every register its reset value in one step, from any state: the operation in
progress is abandoned without a response, no port is accessed, `tick_out` shows 0. What the spec leaves
unspecified after reset is not stated. That what the outside has lined up stays is the model's reading (log 11). -/
def Obligations.ResetInputRestoresRegisters : Prop :=
  ∀ (s : State) (rest : List Input), s.inputs = .reset :: rest →
    ∃ t, step s = .next t ∧ t.pos.op = .idle ∧ t.tickOut = 0 ∧
      t.tick = 0 ∧ t.freq = 0 ∧ t.divisor = 0 ∧ t.ctrlState = .uninit ∧ t.unresp = false ∧
      t.latchStatus.code = 0 ∧ t.latchValue = 0 ∧ t.ackState = .idle ∧ t.ackByte = 0 ∧
      t.scanq = [] ∧ t.overrun = false ∧ t.req = 0 ∧ t.rsp = 0 ∧
      t.trace = s.trace ∧ t.envq = s.envq ∧ t.hostq = s.hostq ∧ t.par = s.par ∧ t.inputs = rest

/-! ### TickClock -/

/-- R92: `GETTICK` answers `(Ok, zext_32(TICK))` and changes nothing else. -/
def Obligations.GettickAnswersTick : Prop :=
  encode .gettick = .request 0x0200000000 ∧
  ∀ s : State, Ready .gettick s →
    exec .gettick s = .next { s with
      rsp := 0x00#8 ++ BitVec.ofNat 32 s.tick, pos := .idle,
      trace := .rsp .ok (BitVec.ofNat 32 s.tick) :: s.trace } ∧
    (s.tick < 2 ^ 32 → (BitVec.ofNat 32 s.tick).toNat = s.tick)

/-- R91: `ADVANCE_TICK` increments `TICK` modulo `2^W`, emits `eoi(IRQ_TIMER)`, and changes nothing else,
at every sequencer position. -/
def Obligations.AdvanceTickIncrements : Prop :=
  encode .advanceTick = .event 1 ∧
  ∀ s : State, exec .advanceTick s = .next { s with
    tick := (s.tick + 1) % 2 ^ s.par.width, trace := .eoi s.par.irqTimer :: .tick :: s.trace }

/-- R90: `CLKINIT freq` clamps the frequency, then the floor quotient, writes the control word and the two divisor
bytes, low then high, zeroes `TICK` and answers `(Ok, DIVISOR)`; nothing else changes. Whatever ticks arrive between
its actions are discarded: `TICK` is 0 at its response, and all but the history is as in a run without them. -/
def Obligations.ClkinitProgramsTimer : Prop :=
  (∀ (freq : Word32) (s : State), encode (.clkinit freq) = .request (0x01#8 ++ freq) ∧
    (Ready (.clkinit freq) s → s.par.Ok →
      ∃ f d : Nat, f = (if freq.toNat = 0 then 1 else min freq.toNat s.par.oscHz.toNat) ∧
        d = min (s.par.oscHz.toNat / f) 65536 ∧ 1 ≤ d ∧
        (BitVec.ofNat 32 f).toNat = f ∧ (BitVec.ofNat 17 d).toNat = d ∧
        Runs (List.replicate 4 (.clkinit freq)) s { s with
          freq := BitVec.ofNat 32 f, divisor := BitVec.ofNat 17 d, tick := 0,
          rsp := 0x00#8 ++ BitVec.ofNat 32 d, pos := .idle,
          trace := .rsp .ok (BitVec.ofNat 32 d) :: .ioW s.par.portPitCh0 (BitVec.ofNat 8 (d / 256)) ::
            .ioW s.par.portPitCh0 (BitVec.ofNat 8 d) :: .ioW s.par.portPitCtrl s.par.pitCw :: s.trace })) ∧
  ∀ (freq : Word32) (s t : State) (k m n : Nat), Ready (.clkinit freq) s →
    Runs (List.replicate 4 (.clkinit freq)) s t →
    ∃ u, Runs ([.clkinit freq] ++ List.replicate k .advanceTick ++ [.clkinit freq] ++
        List.replicate m .advanceTick ++ [.clkinit freq] ++ List.replicate n .advanceTick ++ [.clkinit freq]) s u ∧
      u.tick = 0 ∧ { u with trace := t.trace } = t

/-- The writers of `TICK`: the tick event adds one modulo `2^W`, the last action of `CLKINIT` and the reset input
zero it, and no other step changes it (R21, R35). -/
def Obligations.TickHasTwoWriters : Prop :=
  ∀ s t : State, step s = .next t →
    t.tick = s.tick ∨
    (t.tick = (s.tick + 1) % 2 ^ s.par.width ∧ ∃ w, s.inputs.head? = some (.ev w) ∧ w.getLsbD 0 = true) ∨
    (t.tick = 0 ∧ (s.inputs.head? = some .reset ∨ (Quiet s ∧ s.pos = .clkinit .c4)))

/-- `n` tick events advance `TICK` by `n` modulo `2^W` and change nothing else but the history (R95). -/
def Obligations.TicksAdvanceModulo : Prop :=
  ∀ (n : Nat) (s : State), s.tick < 2 ^ s.par.width →
    ∃ t, Runs (List.replicate n .advanceTick) s t ∧ t.tick = (s.tick + n) % 2 ^ s.par.width ∧
      { t with tick := s.tick, trace := s.trace } = s

/-! ### Timeout -/

/-- `delta(ms)` is the least number of ticks that lasts `ms * FREQ / 1000`, whenever no reduction modulo `2^W`
occurs: rounding never shortens a wait (R100, R109). With `FREQ = 0` it is 0 (R197). -/
def Obligations.DeltaIsLeastTickCount : Prop :=
  ∀ (s : State) (ms : Word32),
    ((ms.toNat * s.freq.toNat + 999) / 1000 < 2 ^ s.par.width →
      ∀ q : Nat, s.delta ms ≤ q ↔ ms.toNat * s.freq.toNat ≤ 1000 * q) ∧
    (s.freq = 0 → s.delta ms = 0)

/-- R101: `DEADLINE ms` answers `(TICK + ceil(ms * FREQ / 1000)) mod 2^W` and changes nothing else. -/
def Obligations.DeadlineAnswersTickPlusDelta : Prop :=
  ∀ (ms : Word32) (s : State), encode (.deadline ms) = .request (0x10#8 ++ ms) ∧
    (Ready (.deadline ms) s →
      ∃ d : Nat, d = (s.tick + (ms.toNat * s.freq.toNat + 999) / 1000) % 2 ^ s.par.width ∧
        exec (.deadline ms) s = .next { s with
          rsp := 0x00#8 ++ BitVec.ofNat 32 d, pos := .idle, trace := .rsp .ok (BitVec.ofNat 32 d) :: s.trace })

/-- R103: `EXPIRED deadline` answers 1 exactly when the `W`-bit difference `TICK - deadline` has its top bit clear;
operand bits above `W` are ignored; nothing else changes. -/
def Obligations.ExpiredAnswersComparator : Prop :=
  ∀ (x : Word32) (s : State), encode (.expired x) = .request (0x11#8 ++ x) ∧
    (Ready (.expired x) s →
      ∃ v : Word32, (v = if (s.tick + 2 ^ s.par.width - x.toNat % 2 ^ s.par.width) % 2 ^ s.par.width
            < 2 ^ (s.par.width - 1) then 1 else 0) ∧
        exec (.expired x) s = .next { s with
          rsp := 0x00#8 ++ v, pos := .idle, trace := .rsp .ok v :: s.trace })

/-- The window of the comparator (R107): a deadline made at tick `t0` with `k` ticks to go, read `j` ticks later. -/
def Obligations.ComparatorWindow : Prop :=
  ∀ (s : State) (t0 k j : Nat), s.par.Ok → s.tick = (t0 + j) % 2 ^ s.par.width → k < 2 ^ s.par.width →
    (s.expired ((t0 + k) % 2 ^ s.par.width) = true ↔
      ((s.tick : Int) - t0 - k) % 2 ^ s.par.width < 2 ^ (s.par.width - 1)) ∧
    (k ≤ 2 ^ (s.par.width - 1) →
      (j < k → s.expired ((t0 + k) % 2 ^ s.par.width) = false) ∧
      (k ≤ j → j < k + 2 ^ (s.par.width - 1) → s.expired ((t0 + k) % 2 ^ s.par.width) = true) ∧
      (k + 2 ^ (s.par.width - 1) ≤ j → j < k + 2 ^ s.par.width →
        s.expired ((t0 + k) % 2 ^ s.par.width) = false)) ∧
    (2 ^ (s.par.width - 1) < k → j = 0 → s.expired ((t0 + k) % 2 ^ s.par.width) = true)

/-- R108: `DEADLINE 0` answers the current tick, and `EXPIRED` of that answer is 1 at the first check, provided
fewer than `2^(W-1)` ticks intervene. -/
def Obligations.ZeroDeadlineExpiresAtOnce : Prop :=
  ∀ (s : State) (k : Nat), s.par.Ok → s.tick < 2 ^ s.par.width → Ready (.deadline 0) s →
    k < 2 ^ (s.par.width - 1) →
    ∃ t u v : State, exec (.deadline 0) s = .next t ∧ t.rsp = 0x00#8 ++ BitVec.ofNat 32 s.tick ∧
      Runs (List.replicate k .advanceTick) t u ∧
      exec (.expired (BitVec.ofNat 32 s.tick)) u = .next v ∧ v.rsp = 0x00#8 ++ (1 : Word32)

/-- R104: the two actions of `SLEEP ms`; a sleep of 0 ticks ends at its first check whatever ticks came before it,
fewer than `2^(W-1)`; one whose `delta` is beyond the window ends at once. -/
def Obligations.SleepWaitsForDeadline : Prop :=
  ∀ (ms : Word32) (s : State), encode (.sleep ms) = .request (0x12#8 ++ ms) ∧
    (Ready (.sleep ms) s → exec (.sleep ms) s = .next { s with
      dl := (s.tick + (ms.toNat * s.freq.toNat + 999) / 1000) % 2 ^ s.par.width, pos := .sleep .s1 }) ∧
    (s.pos = .sleep .s1 → s.expired s.dl = true → exec (.sleep ms) s = .next { s with
      rsp := 0, pos := .idle, trace := .rsp .ok 0 :: s.trace }) ∧
    (s.pos = .sleep .s1 → s.expired s.dl = false → exec (.sleep ms) s = .next s) ∧
    (Ready (.sleep ms) s → s.par.Ok → s.tick < 2 ^ s.par.width → ms = 0 ∨ s.freq = 0 →
      ∀ k < 2 ^ (s.par.width - 1), ∃ t, Runs ([.sleep ms] ++ List.replicate k .advanceTick ++ [.sleep ms]) s t ∧
        t.dl = s.tick ∧ t.rsp = 0 ∧ t.pos = .idle) ∧
    (Ready (.sleep ms) s → s.par.Ok → s.tick < 2 ^ s.par.width → 2 ^ (s.par.width - 1) < s.delta ms →
      ∃ t, Runs [.sleep ms, .sleep ms] s t ∧ t.rsp = 0 ∧ t.pos = .idle)

/-- A sleep whose `delta` is inside the window ends at the first check after `delta` ticks, never before (R109, R216). -/
def Obligations.SleepEndsNoEarlier : Prop :=
  ∀ (ms : Word32) (s : State) (n : Nat), Ready (.sleep ms) s → s.par.Ok → s.tick < 2 ^ s.par.width →
    s.delta ms ≤ 2 ^ (s.par.width - 1) → n < s.delta ms + 2 ^ (s.par.width - 1) →
    ∃ t, Runs ([.sleep ms] ++ List.replicate n .advanceTick ++ [.sleep ms]) s t ∧
      (t.pos = .idle ↔ s.delta ms ≤ n) ∧ (t.pos = .idle → t.rsp = 0)

/-! ### PS2Controller -/

/-- `PS2WR byte` with the input buffer free at the first status read: one status read, then the byte is written to
the data port; the slot is not armed and only `DL` and `S` are written (R115, R116). -/
def Obligations.Ps2wrSendsByte : Prop :=
  ∀ (byte st : Byte) (rest : List Byte) (s : State), Ready (.ps2wr byte) s →
    s.envq = st :: rest → st.getLsbD 1 = false →
    Runs (List.replicate 3 (.ps2wr byte)) s { s with
      dl := s.deadlineIn s.par.tPollMs, sreg := st, envq := rest, rsp := 0, pos := .idle,
      trace := .rsp .ok 0 :: .ioW s.par.portPs2Data byte :: .ioR s.par.portPs2StCmd st :: s.trace }

/-- `PS2RD` with a byte waiting at the first status read: it is read from the data port and answered; the error
bits of the status byte change nothing (R115, R117, R126). -/
def Obligations.Ps2rdReadsByte : Prop :=
  ∀ (st b : Byte) (rest : List Byte) (s : State), Ready .ps2rd s →
    s.envq = st :: b :: rest → st.getLsbD 0 = true →
    Runs (List.replicate 3 .ps2rd) s { s with
      dl := s.deadlineIn s.par.tPollMs, sreg := st, cur := b, envq := rest,
      rsp := 0x00#8 ++ (0 : BitVec 24) ++ b, pos := .idle,
      trace := .rsp .ok ((0 : BitVec 24) ++ b) :: .ioR s.par.portPs2Data b :: .ioR s.par.portPs2StCmd st :: s.trace }

/-- `PS2CMD cmd` with the input buffer free at the first status read: the command goes to the command port;
only `DL` and `S` are written, and `CTRL_STATE` does not change (R115, R118). -/
def Obligations.Ps2cmdWritesCommand : Prop :=
  ∀ (cmd st : Byte) (rest : List Byte) (s : State), Ready (.ps2cmd cmd) s →
    s.envq = st :: rest → st.getLsbD 1 = false →
    Runs (List.replicate 3 (.ps2cmd cmd)) s { s with
      dl := s.deadlineIn s.par.tPollMs, sreg := st, envq := rest, rsp := 0, pos := .idle,
      trace := .rsp .ok 0 :: .ioW s.par.portPs2StCmd cmd :: .ioR s.par.portPs2StCmd st :: s.trace }

/-- The status poll (R115) as `PS2WR`, `PS2RD` and `PS2CMD` use it: however often the status byte does not have the
wanted bit, the port is read afresh until it has it, as long as the deadline has not expired: whatever tick events
come between its actions, fewer than `delta(T_POLL_MS)`. -/
def Obligations.PollReadsUntilReady : Prop :=
  ∀ (busy : List Byte) (st : Byte) (rest : List Byte) (is : List Instr) (s : State),
    s.par.Ok → s.tick < 2 ^ s.par.width → s.envq = busy ++ st :: rest →
    s.delta s.par.tPollMs ≤ 2 ^ (s.par.width - 1) → is.count .advanceTick < s.delta s.par.tPollMs →
    (∀ byte : Byte, Ready (.ps2wr byte) s → Ticked (.ps2wr byte) (2 * busy.length + 2) is →
      (∀ b ∈ busy, b.getLsbD 1 = true) → st.getLsbD 1 = false →
      ∃ t, Runs is s t ∧ t.pos = .ps2wr .w1 ∧ t.envq = rest ∧
        t.trace.filter isPortAccess =
          ((busy ++ [st]).map (.ioR s.par.portPs2StCmd)).reverse ++ s.trace.filter isPortAccess) ∧
    (Ready .ps2rd s → Ticked .ps2rd (2 * busy.length + 2) is →
      (∀ b ∈ busy, b.getLsbD 0 = false) → st.getLsbD 0 = true →
      ∃ t, Runs is s t ∧ t.pos = .ps2rd .r1 ∧ t.envq = rest ∧
        t.trace.filter isPortAccess =
          ((busy ++ [st]).map (.ioR s.par.portPs2StCmd)).reverse ++ s.trace.filter isPortAccess) ∧
    (∀ cmd : Byte, Ready (.ps2cmd cmd) s → Ticked (.ps2cmd cmd) (2 * busy.length + 2) is →
      (∀ b ∈ busy, b.getLsbD 1 = true) → st.getLsbD 1 = false →
      ∃ t, Runs is s t ∧ t.pos = .ps2cmd .k1 ∧ t.envq = rest ∧
        t.trace.filter isPortAccess =
          ((busy ++ [st]).map (.ioR s.par.portPs2StCmd)).reverse ++ s.trace.filter isPortAccess)

/-- Engine-level timeouts (R171): an iteration that found its condition unmet and then its deadline expired answers
`(Timeout, 0)`; no data or command is written, nothing is latched (R115 to R119). So do the flush and the polls inside
`PS2INIT` and the bring-up of `KBDINIT`, where a timed-out test leaves `CTRL_STATE` in its failed state and a timed-out
flush or `0xAE` write leaves it as it is (R120, R121). -/
def Obligations.EngineTimeoutAnswers : Prop :=
  ∀ s : State, s.expired s.dl = true →
    (∀ byte : Byte, s.pos = .ps2wr (.poll .p2) → exec (.ps2wr byte) s = .next (timedOut s)) ∧
    (s.pos = .ps2rd (.poll .p2) → exec .ps2rd s = .next (timedOut s)) ∧
    (∀ cmd : Byte, s.pos = .ps2cmd (.poll .p2) → exec (.ps2cmd cmd) s = .next (timedOut s)) ∧
    (s.pos = .ps2flush .f2 → exec .ps2flush s = .next (timedOut s)) ∧
    ∀ (i : Instr) (pos : InitPc → Position), BringsUp i pos →
      (s.pos = pos (.flush .f2) → exec i s = .next (timedOut s)) ∧
      (s.pos = pos (.selfCmd (.poll .p2)) ∨ s.pos = pos (.selfRead (.poll .p2)) →
        exec i s = .next { timedOut s with ctrlState := .selfTestFailed }) ∧
      (s.pos = pos (.portCmd (.poll .p2)) ∨ s.pos = pos (.portRead (.poll .p2)) →
        exec i s = .next { timedOut s with ctrlState := .portFailed }) ∧
      (s.pos = pos (.enable (.poll .p2)) → exec i s = .next (timedOut s))

/-- Before any `CLKINIT` (`FREQ = 0`) every poll whose condition is not met at its first status read, and every flush
that finds a byte, ends in a timeout after that one read (R197): in `PS2WR`, `PS2RD`, `PS2CMD`, `PS2FLUSH`, in the
controller bring-up, and in the command protocol, where it latches the device (R147, R150). -/
def Obligations.UnconfiguredWaitTimesOut : Prop :=
  ∀ (s : State) (st : Byte) (rest : List Byte), s.par.Ok → s.tick < 2 ^ s.par.width → s.freq = 0 →
    s.envq = st :: rest →
    (∀ byte : Byte, Ready (.ps2wr byte) s → st.getLsbD 1 = true →
      Runs (List.replicate 3 (.ps2wr byte)) s (timedOut (polledOnce s st))) ∧
    (Ready .ps2rd s → st.getLsbD 0 = false →
      Runs (List.replicate 3 .ps2rd) s (timedOut (polledOnce s st))) ∧
    (∀ cmd : Byte, Ready (.ps2cmd cmd) s → st.getLsbD 1 = true →
      Runs (List.replicate 3 (.ps2cmd cmd)) s (timedOut (polledOnce s st))) ∧
    (Ready .ps2flush s → st.getLsbD 0 = true →
      Runs (List.replicate 3 .ps2flush) s (timedOut (polledOnce s st))) ∧
    (∀ (i : Instr) (pos : InitPc → Position), BringsUp i pos →
      (s.pos = pos (.flush .f0) → st.getLsbD 0 = true →
        Runs (List.replicate 3 i) s (timedOut (polledOnce s st))) ∧
      (s.pos = pos (.selfCmd (.poll .p0)) → st.getLsbD 1 = true →
        Runs (List.replicate 3 i) s { timedOut (polledOnce s st) with ctrlState := .selfTestFailed }) ∧
      (s.pos = pos (.selfRead (.poll .p0)) → st.getLsbD 0 = false →
        Runs (List.replicate 3 i) s { timedOut (polledOnce s st) with ctrlState := .selfTestFailed }) ∧
      (s.pos = pos (.portCmd (.poll .p0)) → st.getLsbD 1 = true →
        Runs (List.replicate 3 i) s { timedOut (polledOnce s st) with ctrlState := .portFailed }) ∧
      (s.pos = pos (.portRead (.poll .p0)) → st.getLsbD 0 = false →
        Runs (List.replicate 3 i) s { timedOut (polledOnce s st) with ctrlState := .portFailed }) ∧
      (s.pos = pos (.enable (.poll .p0)) → st.getLsbD 1 = true →
        Runs (List.replicate 3 i) s (timedOut (polledOnce s st)))) ∧
    (∀ (i : Instr) (bytes : List Byte) (pos : SendPc → Position), Sends i bytes pos →
      (s.pos = pos (.write (.poll .p0)) → st.getLsbD 1 = true →
        Runs (List.replicate 3 i) s (latchedByTimeout (timedOut (polledOnce s st)))) ∧
      (s.pos = pos (.flush .f0) → st.getLsbD 0 = true →
        Runs (List.replicate 3 i) s (latchedByTimeout (desynchronized (polledOnce s st))))) ∧
    (s.pos = .kbdinit (.flush .f0) → st.getLsbD 0 = true →
      Runs (List.replicate 3 .kbdinit) s (latchedByTimeout (desynchronized (polledOnce s st))))

/-- `PS2FLUSH` reads and discards one byte after another while the output buffer is full and the deadline has not
expired, whatever tick events come between its actions, fewer than `delta(T_FLUSH_MS)`; then it answers `Ok`; the
bytes go nowhere (R119). -/
def Obligations.FlushDrainsStaleBytes : Prop :=
  ∀ (stale : List (Byte × Byte)) (st : Byte) (rest : List Byte) (is : List Instr) (s : State),
    s.par.Ok → s.tick < 2 ^ s.par.width → Ready .ps2flush s →
    (∀ p ∈ stale, p.1.getLsbD 0 = true) → st.getLsbD 0 = false →
    s.envq = stale.flatMap (fun p => [p.1, p.2]) ++ st :: rest →
    s.delta s.par.tFlushMs ≤ 2 ^ (s.par.width - 1) → is.count .advanceTick < s.delta s.par.tFlushMs →
    Ticked .ps2flush (3 * stale.length + 2) is →
    ∃ t, Runs is s t ∧
      t.rsp = 0 ∧ t.pos = .idle ∧ t.envq = rest ∧ t.scanq = s.scanq ∧ t.ackState = s.ackState ∧
      t.ackByte = s.ackByte ∧ t.unresp = s.unresp ∧
      t.trace.filter isPortAccess = .ioR s.par.portPs2StCmd st ::
        (stale.flatMap (fun p => [.ioR s.par.portPs2StCmd p.1, .ioR s.par.portPs2Data p.2])).reverse ++
          s.trace.filter isPortAccess

/-- `PS2INIT` with nothing to drain, the buffers always ready and both tests passed: the whole bring-up, with the
port accesses in the order of R121. -/
def Obligations.Ps2initBringsUpController : Prop :=
  encode .ps2init = .request 0x2400000000 ∧
  ∀ (c0 c1 c2 c3 o1 o2 : Byte) (rest : List Byte) (s : State), Ready .ps2init s →
    s.envq = c0 :: c1 :: o1 :: 0x55 :: c2 :: o2 :: 0x00 :: c3 :: rest →
    c0.getLsbD 0 = false → c1.getLsbD 1 = false → c2.getLsbD 1 = false → c3.getLsbD 1 = false →
    o1.getLsbD 0 = true → o2.getLsbD 0 = true →
    Runs (List.replicate 20 .ps2init) s { s with
      unresp := false, ctrlState := .deviceEnabled, dl := s.deadlineIn s.par.tPollMs, sreg := c3, cur := 0x00,
      envq := rest, rsp := 0, pos := .idle,
      trace := .rsp .ok 0 :: .ioW s.par.portPs2StCmd 0xAE :: .ioR s.par.portPs2StCmd c3 ::
        .ioR s.par.portPs2Data 0x00 :: .ioR s.par.portPs2StCmd o2 :: .ioW s.par.portPs2StCmd 0xAB ::
        .ioR s.par.portPs2StCmd c2 :: .ioR s.par.portPs2Data 0x55 :: .ioR s.par.portPs2StCmd o1 ::
        .ioW s.par.portPs2StCmd 0xAA :: .ioR s.par.portPs2StCmd c1 :: .ioR s.par.portPs2StCmd c0 :: s.trace }

/-- R122, R123: a self-test response other than `0x55`, or an interface-test response other than `0x00`, ends
`PS2INIT` and `KBDINIT` with `ControllerFault` and the `{test, byte}` value. -/
def Obligations.ControllerTestFailureFaults : Prop :=
  ∀ (b : Byte) (rest : List Byte) (s : State), s.envq = b :: rest →
    (b ≠ 0x55 →
      (s.pos = .ps2init (.selfRead .r1) → exec .ps2init s = .next { s with
        ctrlState := .selfTestFailed, cur := b, envq := rest, rsp := 0x03#8 ++ BitVec.ofNat 32 b.toNat,
        pos := .idle,
        trace := .rsp .controllerFault (BitVec.ofNat 32 b.toNat) :: .ioR s.par.portPs2Data b :: s.trace }) ∧
      (s.pos = .kbdinit (.init (.selfRead .r1)) → exec .kbdinit s = .next { s with
        ctrlState := .selfTestFailed, cur := b, envq := rest, rsp := 0x03#8 ++ BitVec.ofNat 32 b.toNat,
        pos := .idle,
        trace := .rsp .controllerFault (BitVec.ofNat 32 b.toNat) :: .ioR s.par.portPs2Data b :: s.trace })) ∧
    (b ≠ 0x00 →
      (s.pos = .ps2init (.portRead .r1) → exec .ps2init s = .next { s with
        ctrlState := .portFailed, cur := b, envq := rest, rsp := 0x03#8 ++ BitVec.ofNat 32 (0x100 + b.toNat),
        pos := .idle,
        trace := .rsp .controllerFault (BitVec.ofNat 32 (0x100 + b.toNat)) :: .ioR s.par.portPs2Data b :: s.trace }) ∧
      (s.pos = .kbdinit (.init (.portRead .r1)) → exec .kbdinit s = .next { s with
        ctrlState := .portFailed, cur := b, envq := rest, rsp := 0x03#8 ++ BitVec.ofNat 32 (0x100 + b.toNat),
        pos := .idle,
        trace := .rsp .controllerFault (BitVec.ofNat 32 (0x100 + b.toNat)) :: .ioR s.par.portPs2Data b :: s.trace }))

/-- R120: every transition of `CTRL_STATE` is made by `ps2_init`, at the action and on the byte read that the table
names, whatever instruction runs and at whatever position; a timed-out test ends in its failed state, a timed-out
flush or enable leaves the state. -/
def Obligations.ControllerStateTransitions : Prop :=
  ∀ (i : Instr) (s t : State), exec i s = .next t → s.pos ≠ .idle → opOf i = s.pos.op →
    t.ctrlState =
      match initLabel s.pos with
      | some .i0 => .uninit
      | some .i1 => .selfTestPending
      | some (.selfCmd (.poll .p2)) => if s.expired s.dl then .selfTestFailed else s.ctrlState
      | some (.selfRead (.poll .p2)) => if s.expired s.dl then .selfTestFailed else s.ctrlState
      | some (.selfRead .r1) => if s.envAnswer s.par.portPs2Data = 0x55 then .selfTestOk else .selfTestFailed
      | some .i2 => .portTestPending
      | some (.portCmd (.poll .p2)) => if s.expired s.dl then .portFailed else s.ctrlState
      | some (.portRead (.poll .p2)) => if s.expired s.dl then .portFailed else s.ctrlState
      | some (.portRead .r1) => if s.envAnswer s.par.portPs2Data = 0x00 then .portReady else .portFailed
      | some (.enable .k1) => .deviceEnabled
      | _ => s.ctrlState

/-- R120, over runs: from a state of the invariant a step moves `CTRL_STATE` only along the arrows of the
bring-up machine, back to `Uninit`, or not at all. -/
def Obligations.ControllerStateFollowsArrows : Prop :=
  ∀ s t : State, Inv s → step s = .next t →
    t.ctrlState = s.ctrlState ∨ t.ctrlState = .uninit ∨
    (s.ctrlState, t.ctrlState) ∈ [(CtrlState.uninit, CtrlState.selfTestPending),
      (.selfTestPending, .selfTestOk), (.selfTestPending, .selfTestFailed), (.selfTestOk, .portTestPending),
      (.portTestPending, .portReady), (.portTestPending, .portFailed), (.portReady, .deviceEnabled)]

/-! ### PS2Device -/

/-- R140: the byte a keyboard interrupt reads from the data port goes to the armed slot, else to the tail of the
queue, else it is dropped and `OVERRUN` set; then `eoi(IRQ_KBD)`; nothing else changes, at every position. -/
def Obligations.KbdByteRoutesByte : Prop :=
  encode .kbdByte = .event 2 ∧
  ∀ (b : Byte) (rest : List Byte) (s : State), s.envq = b :: rest →
    (s.ackState = .pending → exec .kbdByte s = .next { s with
      envq := rest, ackByte := b,
      ackState := if b = 0xFA then .acked else if b = 0xFE then .resend else .desync,
      trace := .eoi s.par.irqKbd :: .kbd b :: s.trace }) ∧
    (s.ackState ≠ .pending → (∀ cap, s.par.scanqCap = some cap → s.scanq.length < cap) →
      exec .kbdByte s = .next { s with
        envq := rest, scanq := s.scanq ++ [b], trace := .eoi s.par.irqKbd :: .kbd b :: s.trace }) ∧
    (∀ cap, s.ackState ≠ .pending → s.par.scanqCap = some cap → cap ≤ s.scanq.length →
      exec .kbdByte s = .next { s with
        envq := rest, overrun := true, trace := .eoi s.par.irqKbd :: .kbd b :: s.trace })

/-- R61: a port read finds some byte even when the environment has no answer lined up. Such an action completes as with
some byte lined up; an action that reads no port is as with any byte lined up. `KBD_BYTE` always reads, and routes as
R140 says. That the free byte is an opaque constant applied to the counter `draws` is the model's reading (log 4). -/
def Obligations.UnansweredReadTakesFreeByte : Prop :=
  (∀ (i : Instr) (s t : State), s.envq = [] → exec i s = .next t →
    (t.draws = s.draws ∧ ∀ b : Byte, exec i { s with envq := [b] } = .next { t with envq := [b] }) ∨
    (t.draws = s.draws + 1 ∧ ∃ b : Byte, exec i { s with envq := [b] } = .next { t with draws := s.draws })) ∧
  ∀ s : State, s.envq = [] → ∃ b : Byte, ∃ t,
    exec .kbdByte s = .next t ∧ exec .kbdByte { s with envq := [b] } = .next { t with draws := s.draws } ∧
    t.draws = s.draws + 1

/-- R151: `SCANPOP` takes the oldest byte of the queue, or answers `Empty`; nothing else changes. -/
def Obligations.ScanpopTakesOldestByte : Prop :=
  encode .scanpop = .request 0x3100000000 ∧
  ∀ s : State, Ready .scanpop s →
    (s.scanq = [] → exec .scanpop s = .next { s with
      rsp := 0x05#8 ++ (0 : Word32), pos := .idle, trace := .rsp .empty 0 :: s.trace }) ∧
    (∀ (b : Byte) (rest : List Byte), s.scanq = b :: rest → exec .scanpop s = .next { s with
      scanq := rest, rsp := 0x00#8 ++ (0 : BitVec 24) ++ b, pos := .idle,
      trace := .rsp .ok ((0 : BitVec 24) ++ b) :: s.trace })

/-- The queue is first-in first-out with one writer at the tail and one remover at the head (R27, R152): a step
leaves it, appends one byte (the keyboard event), removes the head (`SCANPOP`), or empties it (the reset input).
`OVERRUN` is set only by a keyboard event that finds the queue full, and cleared only by the reset input. -/
def Obligations.QueueIsFirstInFirstOut : Prop :=
  ∀ s t : State, step s = .next t →
    (t.scanq = s.scanq ∨
    (∃ b w, t.scanq = s.scanq ++ [b] ∧ s.ackState ≠ .pending ∧
      s.inputs.head? = some (.ev w) ∧ w.getLsbD 1 = true) ∨
    (∃ b, s.scanq = b :: t.scanq ∧ s.pos = .scanpop ∧ Quiet s) ∨
    (t.scanq = [] ∧ s.inputs.head? = some .reset)) ∧
    (s.overrun = true → t.overrun = false → s.inputs.head? = some .reset) ∧
    (s.overrun = false → t.overrun = true → ∃ w cap, s.inputs.head? = some (.ev w) ∧ w.getLsbD 1 = true ∧
      s.par.scanqCap = some cap ∧ cap ≤ s.scanq.length)

/-- R142: the slot is armed and the response deadline made in the action that writes the command byte, in `SENDCMD`
and in both commands of `KBDINIT`; nothing else is written (R116). -/
def Obligations.WriteArmsSlot : Prop :=
  ∀ (i : Instr) (bytes : List Byte) (pos : SendPc → Position) (b : Byte) (s : State), Sends i bytes pos →
    s.pos = pos (.write .w1) → bytes[s.idx]? = some b →
    exec i s = .next { s with
      ackState := .pending, dl := s.deadlineIn s.par.tAckMs, pos := pos .s1,
      trace := .ioW s.par.portPs2Data b :: s.trace }

/-- What `[s1]` does with a deposited response, in `SENDCMD` and in both commands of `KBDINIT`: ACK goes on to the next
byte with `RETRIES` at 0, or ends the command (R144); RESEND writes the same byte again, `IDX` unchanged and `RETRIES`
one up, or, at the bound, ends the command and latches the device (R145, R148, R149). The ACK of `0xFF` arms the slot
again, for `T_BAT_MS` (R161). -/
def Obligations.ResponseSelectsNextByte : Prop :=
  ∀ (i : Instr) (bytes : List Byte) (pos : SendPc → Position) (s : State), Sends i bytes pos → s.pos = pos .s1 →
    (s.ackState = .acked → s.idx + 1 < bytes.length →
      exec i s = .next { s with
        ackState := .idle, idx := s.idx + 1, retries := 0, pos := pos (.write (.poll .p0)) }) ∧
    (s.ackState = .acked → s.idx + 1 = bytes.length → ¬ (i = .kbdinit ∧ bytes = [0xFF]) →
      exec i s = .next { s with
        ackState := .idle, rsp := 0, pos := .idle, trace := .rsp .ok 0 :: s.trace }) ∧
    (s.ackState = .acked → s.idx + 1 = bytes.length → i = .kbdinit → bytes = [0xFF] →
      exec i s = .next { s with
        ackState := .pending, dl := s.deadlineIn s.par.tBatMs, pos := .kbdinit .b1 }) ∧
    (s.ackState = .resend → s.retries < s.par.maxRetries →
      exec i s = .next { s with
        ackState := .idle, retries := s.retries + 1, pos := pos (.write (.poll .p0)) }) ∧
    (∀ opcode : Byte, s.ackState = .resend → s.retries = s.par.maxRetries → bytes.head? = some opcode →
      exec i s = .next { s with
        ackState := .idle, unresp := true, latchStatus := .deviceUnresponsive,
        latchValue := BitVec.ofNat 32 (0xFE00 + opcode.toNat),
        rsp := 0x04#8 ++ BitVec.ofNat 32 (0xFE00 + opcode.toNat), pos := .idle,
        trace := .rsp .deviceUnresponsive (BitVec.ofNat 32 (0xFE00 + opcode.toNat)) :: s.trace })

/-- `SENDCMD` when the device acknowledges every byte: opcode and arguments are written in order, each once, and
the answer is `(Ok, 0)` with the slot at rest (R75, R141, R144). -/
def Obligations.SendcmdAllAcknowledged : Prop :=
  ∀ (nargs : BitVec 2) (arg1 arg0 opcode st : Byte) (rest : List Byte) (s : State),
    (Instr.sendcmd nargs arg1 arg0 opcode).WellFormed → Ready (.sendcmd nargs arg1 arg0 opcode) s →
    s.unresp = false → st.getLsbD 1 = false →
    s.envq = (repeatedBytes (commandBytes nargs arg1 arg0 opcode).length [st, 0xFA]) ++ rest →
    ∃ t, Runs (.sendcmd nargs arg1 arg0 opcode ::
        repeated (commandBytes nargs arg1 arg0 opcode).length
          (List.replicate 3 (.sendcmd nargs arg1 arg0 opcode) ++ [.kbdByte, .sendcmd nargs arg1 arg0 opcode])) s t ∧
      (commandBytes nargs arg1 arg0 opcode).length = 1 + nargs.toNat ∧
      t.rsp = 0 ∧ t.pos = .idle ∧ t.ackState = .idle ∧ t.ackByte = 0xFA ∧ t.unresp = false ∧
      t.scanq = s.scanq ∧ t.envq = rest ∧
      t.trace.filter (isDataWrite s.par) =
        ((commandBytes nargs arg1 arg0 opcode).map (.ioW s.par.portPs2Data)).reverse ++
          s.trace.filter (isDataWrite s.par)

/-- R148, first property, for a command of any number of bytes: if the byte at each index gets at most `MAX_RETRIES`
RESEND replies and then ACK, the command succeeds after exactly one write more of each byte than it got RESENDs, the
bytes in order; the count starts again at 0 for each byte (R144, R145). -/
def Obligations.ResendsThenAckSucceed : Prop :=
  ∀ (nargs : BitVec 2) (arg1 arg0 opcode st : Byte) (ks : List Nat) (rest : List Byte) (s : State),
    Ready (.sendcmd nargs arg1 arg0 opcode) s → s.unresp = false → st.getLsbD 1 = false →
    ks.length = (commandBytes nargs arg1 arg0 opcode).length → (∀ k ∈ ks, k ≤ s.par.maxRetries) →
    s.envq = ks.flatMap (resendsThenAck st) ++ rest →
    ∃ t, Runs (.sendcmd nargs arg1 arg0 opcode :: ks.flatMap (attempts (.sendcmd nargs arg1 arg0 opcode))) s t ∧
      t.rsp = 0 ∧ t.pos = .idle ∧ t.ackState = .idle ∧ t.unresp = false ∧ t.envq = rest ∧
      t.idx + 1 = ks.length ∧ ks.getLast? = some t.retries ∧
      t.trace.filter (isDataWrite s.par) =
        commandWrites s.par (commandBytes nargs arg1 arg0 opcode) ks ++ s.trace.filter (isDataWrite s.par)

/-- R148, second property: when the device replies RESEND to every write of one byte, the first or a later one after
its predecessors were acknowledged, the command fails with `DeviceUnresponsive` after exactly `MAX_RETRIES + 1` writes
of that byte, with the value `0xFE00 + opcode`, and latches the device (R149); in `SENDCMD` and in both commands of
`KBDINIT`, which ends with that response (R164). -/
def Obligations.ResendsExhaustRetries : Prop :=
  ∀ (i : Instr) (bytes : List Byte) (pos : SendPc → Position) (st : Byte) (ks : List Nat) (rest : List Byte)
    (s : State), Sends i bytes pos → s.pos = pos .s0 ∨ (s.pos = .idle ∧ entryOf i = pos .s0) →
    s.unresp = false → st.getLsbD 1 = false → ks.length < bytes.length → (∀ k ∈ ks, k ≤ s.par.maxRetries) →
    s.envq = ks.flatMap (resendsThenAck st) ++ repeatedBytes (s.par.maxRetries + 1) [st, 0xFE] ++ rest →
    ∃ (t : State) (opcode : Byte), bytes.head? = some opcode ∧
      Runs (i :: (ks ++ [s.par.maxRetries]).flatMap (attempts i)) s t ∧
      t.rsp = 0x04#8 ++ BitVec.ofNat 32 (0xFE00 + opcode.toNat) ∧ t.pos = .idle ∧ t.ackState = .idle ∧
      t.unresp = true ∧ t.latchStatus = .deviceUnresponsive ∧
      t.latchValue = BitVec.ofNat 32 (0xFE00 + opcode.toNat) ∧ t.envq = rest ∧
      t.trace.filter (isDataWrite s.par) =
        commandWrites s.par bytes (ks ++ [s.par.maxRetries]) ++ s.trace.filter (isDataWrite s.par)

/-- R149: while the device is latched, `SENDCMD` answers the stored pair at its first action, with no port access and
no change of the slot. -/
def Obligations.LatchedDeviceShortCircuits : Prop :=
  ∀ (nargs : BitVec 2) (arg1 arg0 opcode : Byte) (s : State),
    Ready (.sendcmd nargs arg1 arg0 opcode) s → s.unresp = true →
    exec (.sendcmd nargs arg1 arg0 opcode) s = .next { s with
      rsp := s.latchStatus.code ++ s.latchValue, pos := .idle,
      trace := .rsp s.latchStatus s.latchValue :: s.trace }

/-- R147: one evaluation of `[s1]` while no byte has come; expiry latches the device and answers `(Timeout, 0)`, no
earlier than the deadline; a write-side timeout inside the command is treated the same way; in `SENDCMD` and in both
commands of `KBDINIT`, which ends with that response (R164). -/
def Obligations.CommandTimeoutLatches : Prop :=
  ∀ (i : Instr) (bytes : List Byte) (pos : SendPc → Position) (s : State), Sends i bytes pos →
    (s.pos = pos .s1 → s.ackState = .pending → s.expired s.dl = false → exec i s = .next s) ∧
    (s.pos = pos .s1 → s.ackState = .pending → s.expired s.dl = true →
      Runs (List.replicate 2 i) s { latchedByTimeout (timedOut s) with ackState := .idle }) ∧
    (s.pos = pos (.write (.poll .p2)) → s.expired s.dl = true →
      exec i s = .next (latchedByTimeout (timedOut s)))

/-- R146, R150: a byte other than ACK or RESEND fails the command with `ProtocolError` and that byte, after a flush;
the device is latched only when the flush times out; in `SENDCMD` and in both commands of `KBDINIT`, which ends with
that response (R164). That `[s3]` counts as an action, which changes only the position, is the model's reading (log 9). -/
def Obligations.DesyncFailsWithFlush : Prop :=
  ∀ (i : Instr) (bytes : List Byte) (pos : SendPc → Position) (s : State), Sends i bytes pos →
    (∀ (st : Byte) (rest : List Byte), s.pos = pos .s1 → s.ackState = .desync → s.envq = st :: rest →
      st.getLsbD 0 = false →
      Runs (List.replicate 4 i) s { desynchronized s with
        ackState := .idle, dl := s.deadlineIn s.par.tFlushMs, sreg := st, envq := rest,
        trace := .rsp .protocolError ((0 : BitVec 24) ++ s.ackByte) :: .ioR s.par.portPs2StCmd st :: s.trace }) ∧
    (s.pos = pos (.flush .f2) → s.expired s.dl = true →
      exec i s = .next (latchedByTimeout (desynchronized s)))

/-- R149: the `Unresponsive` latch is cleared only by the first action of `ps2_init` and by the reset input. It is set
only in the step in which a command, or the wait for `0xAA` with its flush, fails: that step gives a response other
than `Ok`, and stores `(Timeout, 0)`, or, for `DeviceUnresponsive`, the response itself. -/
def Obligations.LatchClearedOnlyByReinit : Prop :=
  ∀ s t : State, step s = .next t →
    (s.unresp = true → t.unresp = false → initLabel s.pos = some .i0 ∨ s.inputs.head? = some .reset) ∧
    (s.unresp = false → t.unresp = true →
      ((∃ l, sendLabel s.pos = some l) ∨ s.pos = .kbdinit .b2 ∨ ∃ l, s.pos = .kbdinit (.flush l)) ∧
      ∃ st v, t.pos = .idle ∧ t.rsp = st.code ++ v ∧ t.trace.head? = some (.rsp st v) ∧
        (((st = .timeout ∨ st = .protocolError) ∧ t.latchStatus = .timeout ∧ t.latchValue = 0) ∨
          (st = .deviceUnresponsive ∧ t.latchStatus = st ∧ t.latchValue = v)))

/-! ### KeyboardDriver -/

/-- `KBDINIT` when everything succeeds and the buffers are always ready: the bring-up, `0xFF` acknowledged, `0xAA`,
`0xF4` acknowledged; no other command byte is written (R160 to R163). -/
def Obligations.KbdinitBringsUpKeyboard : Prop :=
  encode .kbdinit = .request 0x4000000000 ∧
  ∀ (c0 c1 c2 c3 c4 c5 o1 o2 : Byte) (rest : List Byte) (s : State), Ready .kbdinit s →
    s.envq = c0 :: c1 :: o1 :: 0x55 :: c2 :: o2 :: 0x00 :: c3 :: c4 :: 0xFA :: 0xAA :: c5 :: 0xFA :: rest →
    c0.getLsbD 0 = false → c1.getLsbD 1 = false → c2.getLsbD 1 = false → c3.getLsbD 1 = false →
    c4.getLsbD 1 = false → c5.getLsbD 1 = false → o1.getLsbD 0 = true → o2.getLsbD 0 = true →
    ∃ t, Runs (List.replicate 24 .kbdinit ++ [.kbdByte, .kbdinit, .kbdByte] ++ List.replicate 5 .kbdinit ++
        [.kbdByte, .kbdinit]) s t ∧
      t.rsp = 0 ∧ t.pos = .idle ∧ t.ctrlState = .deviceEnabled ∧ t.unresp = false ∧ t.ackState = .idle ∧
      t.ackByte = 0xFA ∧ t.scanq = s.scanq ∧ t.overrun = s.overrun ∧ t.tick = s.tick ∧ t.envq = rest ∧
      t.trace = .rsp .ok 0 :: .eoi s.par.irqKbd :: .kbd 0xFA :: .ioW s.par.portPs2Data 0xF4 ::
        .ioR s.par.portPs2StCmd c5 :: .eoi s.par.irqKbd :: .kbd 0xAA :: .eoi s.par.irqKbd :: .kbd 0xFA ::
        .ioW s.par.portPs2Data 0xFF :: .ioR s.par.portPs2StCmd c4 ::
        .ioW s.par.portPs2StCmd 0xAE :: .ioR s.par.portPs2StCmd c3 ::
        .ioR s.par.portPs2Data 0x00 :: .ioR s.par.portPs2StCmd o2 :: .ioW s.par.portPs2StCmd 0xAB ::
        .ioR s.par.portPs2StCmd c2 :: .ioR s.par.portPs2Data 0x55 :: .ioR s.par.portPs2StCmd o1 ::
        .ioW s.par.portPs2StCmd 0xAA :: .ioR s.par.portPs2StCmd c1 :: .ioR s.par.portPs2StCmd c0 :: s.trace

/-- R164: while `KBDINIT` is in its controller bring-up no byte is ever written to the data port, and a failure there
ends the operation with a status other than `Ok`; only the completed bring-up goes on to `0xFF`. -/
def Obligations.FailedBringupSendsNothing : Prop :=
  ∀ (l : InitPc) (s t : State), s.pos = .kbdinit (.init l) → s.par.Ok → exec .kbdinit s = .next t →
    t.trace.filter (isDataWrite s.par) = s.trace.filter (isDataWrite s.par) ∧
    ((∃ l', t.pos = .kbdinit (.init l')) ∨
      (t.pos = .idle ∧ ∃ st v, st ≠ .ok ∧ t.trace.head? = some (.rsp st v) ∧ t.rsp = st.code ++ v) ∨
      (l = .enable .k1 ∧ t.pos = .kbdinit (.reset .s0) ∧ t.ctrlState = .deviceEnabled))

/-- R161: the wait for `0xAA` takes whatever byte has been deposited; `0xAA` goes on to `0xF4`, another byte ends in
`ProtocolError` with a flush, which latches the device only when it times out (R164, R150); expiry ends in `Timeout`
with the latch. That `[b3]` counts as an action, which changes only the position, is the model's reading (log 9). -/
def Obligations.BatWaitOutcomes : Prop :=
  (∀ s : State, s.pos = .kbdinit .b1 →
    (s.ackState = .pending → s.expired s.dl = false → exec .kbdinit s = .next s) ∧
    (s.ackState = .pending → s.expired s.dl = true →
      Runs [.kbdinit, .kbdinit] s { latchedByTimeout (timedOut s) with ackState := .idle }) ∧
    (s.ackState ≠ .pending → s.ackByte = 0xAA →
      exec .kbdinit s = .next { s with ackState := .idle, pos := .kbdinit (.enable .s0) }) ∧
    (∀ (st : Byte) (rest : List Byte), s.ackState ≠ .pending → s.ackByte ≠ 0xAA → s.envq = st :: rest →
      st.getLsbD 0 = false → Runs (List.replicate 4 .kbdinit) s { desynchronized s with
        ackState := .idle, dl := s.deadlineIn s.par.tFlushMs, sreg := st, envq := rest,
        trace := .rsp .protocolError ((0 : BitVec 24) ++ s.ackByte) :: .ioR s.par.portPs2StCmd st :: s.trace })) ∧
  ∀ s : State, s.pos = .kbdinit (.flush .f2) → s.expired s.dl = true →
    exec .kbdinit s = .next (latchedByTimeout (desynchronized s))

/-! ### Frames -/

/-- `GETTICK`, `DEADLINE`, `EXPIRED`, `SLEEP`, `SCANPOP`, `CLKINIT`: what each action leaves unchanged. `SLEEP` also
writes `DL`, `SCANPOP` also `SCANQ`, `CLKINIT` also `FREQ`, `DIVISOR`, `TICK`; none reads a port. -/
def Obligations.FrameOfHostOnlyOperations : Prop :=
  ∀ (i : Instr) (s t : State), exec i s = .next t →
    (i = .gettick ∨ (∃ ms, i = .deadline ms) ∨ (∃ d, i = .expired d) →
      t = { s with rsp := t.rsp, pos := t.pos, trace := t.trace }) ∧
    ((∃ ms, i = .sleep ms) → t = { s with dl := t.dl, rsp := t.rsp, pos := t.pos, trace := t.trace }) ∧
    (i = .scanpop → t = { s with scanq := t.scanq, rsp := t.rsp, pos := t.pos, trace := t.trace }) ∧
    ((∃ freq, i = .clkinit freq) → t = { s with
      freq := t.freq, divisor := t.divisor, tick := t.tick, rsp := t.rsp, pos := t.pos, trace := t.trace })

/-- The polling engine's operations: `PS2WR` and `PS2CMD` write `DL` and `S`, `PS2RD` and `PS2FLUSH` also `CUR`,
`PS2INIT` also `UNRESP` and `CTRL_STATE`, and nothing else but the response (R116 to R119, R121). `envq` and `draws`
are the environment's answers used up. -/
def Obligations.FrameOfPollingOperations : Prop :=
  ∀ (i : Instr) (s t : State), exec i s = .next t →
    ((∃ b, i = .ps2wr b) ∨ (∃ c, i = .ps2cmd c) →
      t = { s with
        dl := t.dl, sreg := t.sreg, rsp := t.rsp, pos := t.pos, envq := t.envq, draws := t.draws,
        trace := t.trace }) ∧
    (i = .ps2rd ∨ i = .ps2flush →
      t = { s with
        dl := t.dl, sreg := t.sreg, cur := t.cur, rsp := t.rsp, pos := t.pos, envq := t.envq,
        draws := t.draws, trace := t.trace }) ∧
    (i = .ps2init →
      t = { s with
        dl := t.dl, sreg := t.sreg, cur := t.cur, unresp := t.unresp, ctrlState := t.ctrlState,
        rsp := t.rsp, pos := t.pos, envq := t.envq, draws := t.draws, trace := t.trace })

/-- `SENDCMD` writes the slot's state, `IDX`, `RETRIES`, `DL`, `S`, `CUR` and the latch, `KBDINIT` also `CTRL_STATE`;
neither writes `ACK_BYTE`, `SCANQ`, `OVERRUN`, `TICK`, `FREQ`, `DIVISOR` or `REQ`. -/
def Obligations.FrameOfDeviceCommands : Prop :=
  ∀ (i : Instr) (s t : State), exec i s = .next t →
    ((∃ n a1 a0 o, i = .sendcmd n a1 a0 o) →
      t = { s with
        ackState := t.ackState, idx := t.idx, retries := t.retries, dl := t.dl, sreg := t.sreg,
        cur := t.cur, unresp := t.unresp, latchStatus := t.latchStatus, latchValue := t.latchValue,
        rsp := t.rsp, pos := t.pos, envq := t.envq, draws := t.draws, trace := t.trace }) ∧
    (i = .kbdinit →
      t = { s with
        ctrlState := t.ctrlState, ackState := t.ackState, idx := t.idx, retries := t.retries, dl := t.dl,
        sreg := t.sreg, cur := t.cur, unresp := t.unresp, latchStatus := t.latchStatus, latchValue := t.latchValue,
        rsp := t.rsp, pos := t.pos, envq := t.envq, draws := t.draws, trace := t.trace })

/-! ### Whole-machine rules -/

/-- R8, R51, R82: one action of an instruction accesses at most one port, and only as the tables of R51 and R82 give
that instruction; the event history only grows. In the states of a run the bytes `KBDINIT` writes to the data port are
`0xFF` and `0xF4` only (R84, R162), and those `SENDCMD` writes are bytes of the command in `REQ` (R75, R141). `CUR` is
the byte being written, in the action that writes it to either port, and the byte just read, after the action that
reads the data port (R28; that it is the first without being stored is the model's reading of R28 beside R116 and
R118, log 14). -/
def Obligations.PortAccessesArePermitted : Prop :=
  (∀ (i : Instr) (s t : State), exec i s = .next t →
    ∃ es, t.trace = es ++ s.trace ∧ es.countP isPortAccess ≤ 1 ∧ ∀ e ∈ es, PermittedAccess s.par i e) ∧
  (∀ (s t : State) (es : List TraceEvent) (b : Byte), Inv s → exec .kbdinit s = .next t →
    t.trace = es ++ s.trace → .ioW s.par.portPs2Data b ∈ es → b = 0xFF ∨ b = 0xF4) ∧
  (∀ (nargs : BitVec 2) (arg1 arg0 opcode b : Byte) (s t : State) (es : List TraceEvent), Inv s →
    decode (.request s.req) = .ok (.sendcmd nargs arg1 arg0 opcode) →
    exec (.sendcmd nargs arg1 arg0 opcode) s = .next t →
    t.trace = es ++ s.trace → .ioW s.par.portPs2Data b ∈ es → b ∈ commandBytes nargs arg1 arg0 opcode) ∧
  ∀ (i : Instr) (s t : State) (es : List TraceEvent) (b : Byte), Inv s →
    decode (.request s.req) = .ok i → exec i s = .next t → t.trace = es ++ s.trace →
    (.ioW s.par.portPs2Data b ∈ es ∨ .ioW s.par.portPs2StCmd b ∈ es → s.curByte = b) ∧
    (.ioR s.par.portPs2Data b ∈ es → t.curByte = b)

/-- R11, R71: exactly one response per accepted request. In every step that is no reset, the requests accepted and
the responses given balance with whether an operation is in progress before and after. -/
def Obligations.OneResponsePerRequest : Prop :=
  ∀ s t : State, step s = .next t → s.inputs.head? ≠ some .reset →
    ∃ es, t.trace = es ++ s.trace ∧
      es.countP isRequest + inProgress s = es.countP isResponse + inProgress t

/-- The state after reset meets the invariant, for every choice of parameters in the ranges of R6. -/
def Obligations.ResetMeetsInvariant : Prop :=
  Inv State.reset ∧ ∀ p : Config.Params, p.Ok → Inv (State.resetOf p)

/-- Every step keeps the invariant, and no step, from any state, changes the parameters of R6. -/
def Obligations.StepKeepsInvariant : Prop :=
  (∀ s t : State, Inv s → step s = .next t → Inv t) ∧
  ∀ s t : State, step s = .next t → t.par = s.par

/-- Every instruction runs: an event at every sequencer position, a request's actions whenever the sequencer is idle or
that operation is in progress; a request instruction has no meaning only while ANOTHER operation is in progress
(R9, R65; that `exec` then refuses is the model's choice, log 13). -/
def Obligations.EveryActionCompletes : Prop :=
  ∀ (i : Instr) (s : State),
    (i = .advanceTick ∨ i = .kbdByte ∨ s.pos = .idle ∨ s.pos.op = opOf i → ∃ t, exec i s = .next t) ∧
    (i ≠ .advanceTick → i ≠ .kbdByte → s.pos ≠ .idle → s.pos.op ≠ opOf i →
      exec i s = .refused .operationInProgress)

/-- R11, R175: from a state of the invariant every step answers a next state; no error stops the block. -/
def Obligations.BlockNeverStops : Prop :=
  ∀ s : State, Inv s → ∃ t, step s = .next t

/-- R36, U16: the locals the spec leaves unspecified while the block is idle are never read before being written: two
idle states that differ in them alone go through runs that differ in them alone, with the same event history. -/
def Obligations.UnspecifiedLocalsAreNeverRead : Prop :=
  ∀ (n : Nat) (s a : State) (dl : Nat) (cur : Byte) (idx retries : Nat) (sreg : Byte), s.pos = .idle →
    Host.Core.run Sys2Proof.core n s = .next a →
    ∃ dl' cur' idx' retries' sreg',
      Host.Core.run Sys2Proof.core n (withLocals s dl cur idx retries sreg) =
        .next (withLocals a dl' cur' idx' retries' sreg')
end

