-- ==== Sys2Proof/Laws/Decode.lean ====
section
/-! SUPPORT. The fields of request words: what extraction gives of a word put together, and back. -/

namespace Sys2Proof

/-- The number a concatenation stands for. -/
theorem toNat_append_eq {m n : Nat} (a : BitVec m) (b : BitVec n) :
    (a ++ b).toNat = a.toNat * 2 ^ n + b.toNat := by
  rw [BitVec.toNat_append, ← Nat.shiftLeft_add_eq_or_of_lt b.isLt, Nat.shiftLeft_eq]

/-- The number a field stands for. -/
theorem toNat_field {n : Nat} (w : BitVec n) (lo len : Nat) :
    (w.extractLsb' lo len).toNat = w.toNat / 2 ^ lo % 2 ^ len := by
  rw [BitVec.extractLsb'_toNat, Nat.shiftRight_eq_div_pow]

/-- A request word as a number. -/
theorem toNat_requestWord (op : Byte) (x : Word32) :
    (requestWord op x).toNat = op.toNat * 2 ^ 32 + x.toNat := toNat_append_eq op x

@[simp] theorem opField_requestWord (op : Byte) (x : Word32) : opField (requestWord op x) = op := by
  apply BitVec.eq_of_toNat_eq
  rw [opField, toNat_field, toNat_requestWord]
  omega

@[simp] theorem operandField_requestWord (op : Byte) (x : Word32) : operandField (requestWord op x) = x := by
  apply BitVec.eq_of_toNat_eq
  rw [operandField, toNat_field, toNat_requestWord]
  omega

/-- A request word is its two fields. -/
theorem requestWord_fields (w : Word40) : requestWord (opField w) (operandField w) = w := by
  apply BitVec.eq_of_toNat_eq
  rw [toNat_requestWord, opField, operandField, toNat_field, toNat_field]
  omega

/-- The operand of `SENDCMD` as a number (R75). -/
theorem toNat_sendcmdOperand (nargs : BitVec 2) (arg1 arg0 opcode : Byte) :
    (sendcmdOperand nargs arg1 arg0 opcode).toNat =
      nargs.toNat * 2 ^ 24 + arg1.toNat * 2 ^ 16 + arg0.toNat * 2 ^ 8 + opcode.toNat := by
  show ((0 : BitVec 5) ++ (0 : BitVec 1) ++ nargs ++ arg1 ++ arg0 ++ opcode).toNat = _
  simp only [toNat_append_eq]
  simp
  omega

/-- A request word that decodes stands for a request, never for an event. -/
theorem decodeRequest_ok_isRequest {w : Word40} {i : Instr} (h : decodeRequest w = .ok i) :
    i ≠ .advanceTick ∧ i ≠ .kbdByte := by
  have none {x : Word32} {j : Instr} (hj : j ≠ .advanceTick ∧ j ≠ .kbdByte) (hd : decodeNone x j = .ok i) :
      i ≠ .advanceTick ∧ i ≠ .kbdByte := by
    simp only [decodeNone] at hd
    split at hd
    · cases hd; exact hj
    · cases hd
  revert h
  simp only [decodeRequest]
  generalize opField w = op
  generalize operandField w = x
  intro h
  unfold decodeOp at h
  simp only [ite_eq_iff] at h
  simp only [decodePs2wr, decodePs2cmd, decodeSendcmd, ite_eq_iff, Except.ok.injEq, reduceCtorEq, and_false, or_false, false_or] at h
  rcases h with ⟨-, rfl⟩ | ⟨-, ⟨-, h⟩ | ⟨-, ⟨-, rfl⟩ | ⟨-, ⟨-, rfl⟩ | ⟨-, ⟨-, rfl⟩ | ⟨-, ⟨-, -, rfl⟩ | ⟨-, ⟨-, h⟩ |
    ⟨-, ⟨-, h⟩ | ⟨-, ⟨-, -, -, rfl⟩ | ⟨-, ⟨-, h⟩ | ⟨-, ⟨-, -, -, -, rfl⟩ | ⟨-, ⟨-, h⟩ | ⟨-, -, h⟩⟩⟩⟩⟩⟩⟩⟩⟩⟩⟩⟩
  all_goals first | exact none (by simp) h | simp

end Sys2Proof
end

