-- ==== Sys2Proof/Laws/State.lean ====
section
/-! SUPPORT. What each update of the state leaves in each field: one lemma per field per update, true by rfl. -/

namespace Sys2Proof.Machine

variable (s : State)

/-! ### `State.record` -/

@[simp] theorem State.record_tick (e : TraceEvent) : (s.record e).tick = s.tick := rfl
@[simp] theorem State.record_freq (e : TraceEvent) : (s.record e).freq = s.freq := rfl
@[simp] theorem State.record_divisor (e : TraceEvent) : (s.record e).divisor = s.divisor := rfl
@[simp] theorem State.record_ctrlState (e : TraceEvent) : (s.record e).ctrlState = s.ctrlState := rfl
@[simp] theorem State.record_unresp (e : TraceEvent) : (s.record e).unresp = s.unresp := rfl
@[simp] theorem State.record_latchStatus (e : TraceEvent) : (s.record e).latchStatus = s.latchStatus := rfl
@[simp] theorem State.record_latchValue (e : TraceEvent) : (s.record e).latchValue = s.latchValue := rfl
@[simp] theorem State.record_ackState (e : TraceEvent) : (s.record e).ackState = s.ackState := rfl
@[simp] theorem State.record_ackByte (e : TraceEvent) : (s.record e).ackByte = s.ackByte := rfl
@[simp] theorem State.record_scanq (e : TraceEvent) : (s.record e).scanq = s.scanq := rfl
@[simp] theorem State.record_overrun (e : TraceEvent) : (s.record e).overrun = s.overrun := rfl
@[simp] theorem State.record_pos (e : TraceEvent) : (s.record e).pos = s.pos := rfl
@[simp] theorem State.record_dl (e : TraceEvent) : (s.record e).dl = s.dl := rfl
@[simp] theorem State.record_cur (e : TraceEvent) : (s.record e).cur = s.cur := rfl
@[simp] theorem State.record_idx (e : TraceEvent) : (s.record e).idx = s.idx := rfl
@[simp] theorem State.record_retries (e : TraceEvent) : (s.record e).retries = s.retries := rfl
@[simp] theorem State.record_sreg (e : TraceEvent) : (s.record e).sreg = s.sreg := rfl
@[simp] theorem State.record_req (e : TraceEvent) : (s.record e).req = s.req := rfl
@[simp] theorem State.record_rsp (e : TraceEvent) : (s.record e).rsp = s.rsp := rfl
@[simp] theorem State.record_par (e : TraceEvent) : (s.record e).par = s.par := rfl
@[simp] theorem State.record_hostq (e : TraceEvent) : (s.record e).hostq = s.hostq := rfl
@[simp] theorem State.record_inputs (e : TraceEvent) : (s.record e).inputs = s.inputs := rfl
@[simp] theorem State.record_envq (e : TraceEvent) : (s.record e).envq = s.envq := rfl
@[simp] theorem State.record_draws (e : TraceEvent) : (s.record e).draws = s.draws := rfl
@[simp] theorem State.record_trace (e : TraceEvent) : (s.record e).trace = e :: s.trace := rfl
@[simp] theorem State.record_modulus (e : TraceEvent) : (s.record e).modulus = s.modulus := rfl
@[simp] theorem State.record_deadlineIn (e : TraceEvent) (x : Word32) : (s.record e).deadlineIn x = s.deadlineIn x := rfl
@[simp] theorem State.record_expired (e : TraceEvent) (d : Nat) : (s.record e).expired d = s.expired d := rfl

/-! ### `State.goto` -/

@[simp] theorem State.goto_tick (p : Position) : (s.goto p).tick = s.tick := rfl
@[simp] theorem State.goto_freq (p : Position) : (s.goto p).freq = s.freq := rfl
@[simp] theorem State.goto_divisor (p : Position) : (s.goto p).divisor = s.divisor := rfl
@[simp] theorem State.goto_ctrlState (p : Position) : (s.goto p).ctrlState = s.ctrlState := rfl
@[simp] theorem State.goto_unresp (p : Position) : (s.goto p).unresp = s.unresp := rfl
@[simp] theorem State.goto_latchStatus (p : Position) : (s.goto p).latchStatus = s.latchStatus := rfl
@[simp] theorem State.goto_latchValue (p : Position) : (s.goto p).latchValue = s.latchValue := rfl
@[simp] theorem State.goto_ackState (p : Position) : (s.goto p).ackState = s.ackState := rfl
@[simp] theorem State.goto_ackByte (p : Position) : (s.goto p).ackByte = s.ackByte := rfl
@[simp] theorem State.goto_scanq (p : Position) : (s.goto p).scanq = s.scanq := rfl
@[simp] theorem State.goto_overrun (p : Position) : (s.goto p).overrun = s.overrun := rfl
@[simp] theorem State.goto_pos (p : Position) : (s.goto p).pos = p := rfl
@[simp] theorem State.goto_dl (p : Position) : (s.goto p).dl = s.dl := rfl
@[simp] theorem State.goto_cur (p : Position) : (s.goto p).cur = s.cur := rfl
@[simp] theorem State.goto_idx (p : Position) : (s.goto p).idx = s.idx := rfl
@[simp] theorem State.goto_retries (p : Position) : (s.goto p).retries = s.retries := rfl
@[simp] theorem State.goto_sreg (p : Position) : (s.goto p).sreg = s.sreg := rfl
@[simp] theorem State.goto_req (p : Position) : (s.goto p).req = s.req := rfl
@[simp] theorem State.goto_rsp (p : Position) : (s.goto p).rsp = s.rsp := rfl
@[simp] theorem State.goto_par (p : Position) : (s.goto p).par = s.par := rfl
@[simp] theorem State.goto_hostq (p : Position) : (s.goto p).hostq = s.hostq := rfl
@[simp] theorem State.goto_inputs (p : Position) : (s.goto p).inputs = s.inputs := rfl
@[simp] theorem State.goto_envq (p : Position) : (s.goto p).envq = s.envq := rfl
@[simp] theorem State.goto_draws (p : Position) : (s.goto p).draws = s.draws := rfl
@[simp] theorem State.goto_trace (p : Position) : (s.goto p).trace = s.trace := rfl
@[simp] theorem State.goto_modulus (p : Position) : (s.goto p).modulus = s.modulus := rfl
@[simp] theorem State.goto_deadlineIn (p : Position) (x : Word32) : (s.goto p).deadlineIn x = s.deadlineIn x := rfl
@[simp] theorem State.goto_expired (p : Position) (d : Nat) : (s.goto p).expired d = s.expired d := rfl

/-! ### `State.setDeadline` -/

@[simp] theorem State.setDeadline_tick (ms : Word32) : (s.setDeadline ms).tick = s.tick := rfl
@[simp] theorem State.setDeadline_freq (ms : Word32) : (s.setDeadline ms).freq = s.freq := rfl
@[simp] theorem State.setDeadline_divisor (ms : Word32) : (s.setDeadline ms).divisor = s.divisor := rfl
@[simp] theorem State.setDeadline_ctrlState (ms : Word32) : (s.setDeadline ms).ctrlState = s.ctrlState := rfl
@[simp] theorem State.setDeadline_unresp (ms : Word32) : (s.setDeadline ms).unresp = s.unresp := rfl
@[simp] theorem State.setDeadline_latchStatus (ms : Word32) : (s.setDeadline ms).latchStatus = s.latchStatus := rfl
@[simp] theorem State.setDeadline_latchValue (ms : Word32) : (s.setDeadline ms).latchValue = s.latchValue := rfl
@[simp] theorem State.setDeadline_ackState (ms : Word32) : (s.setDeadline ms).ackState = s.ackState := rfl
@[simp] theorem State.setDeadline_ackByte (ms : Word32) : (s.setDeadline ms).ackByte = s.ackByte := rfl
@[simp] theorem State.setDeadline_scanq (ms : Word32) : (s.setDeadline ms).scanq = s.scanq := rfl
@[simp] theorem State.setDeadline_overrun (ms : Word32) : (s.setDeadline ms).overrun = s.overrun := rfl
@[simp] theorem State.setDeadline_pos (ms : Word32) : (s.setDeadline ms).pos = s.pos := rfl
@[simp] theorem State.setDeadline_dl (ms : Word32) : (s.setDeadline ms).dl = s.deadlineIn ms := rfl
@[simp] theorem State.setDeadline_cur (ms : Word32) : (s.setDeadline ms).cur = s.cur := rfl
@[simp] theorem State.setDeadline_idx (ms : Word32) : (s.setDeadline ms).idx = s.idx := rfl
@[simp] theorem State.setDeadline_retries (ms : Word32) : (s.setDeadline ms).retries = s.retries := rfl
@[simp] theorem State.setDeadline_sreg (ms : Word32) : (s.setDeadline ms).sreg = s.sreg := rfl
@[simp] theorem State.setDeadline_req (ms : Word32) : (s.setDeadline ms).req = s.req := rfl
@[simp] theorem State.setDeadline_rsp (ms : Word32) : (s.setDeadline ms).rsp = s.rsp := rfl
@[simp] theorem State.setDeadline_par (ms : Word32) : (s.setDeadline ms).par = s.par := rfl
@[simp] theorem State.setDeadline_hostq (ms : Word32) : (s.setDeadline ms).hostq = s.hostq := rfl
@[simp] theorem State.setDeadline_inputs (ms : Word32) : (s.setDeadline ms).inputs = s.inputs := rfl
@[simp] theorem State.setDeadline_envq (ms : Word32) : (s.setDeadline ms).envq = s.envq := rfl
@[simp] theorem State.setDeadline_draws (ms : Word32) : (s.setDeadline ms).draws = s.draws := rfl
@[simp] theorem State.setDeadline_trace (ms : Word32) : (s.setDeadline ms).trace = s.trace := rfl
@[simp] theorem State.setDeadline_modulus (ms : Word32) : (s.setDeadline ms).modulus = s.modulus := rfl
@[simp] theorem State.setDeadline_deadlineIn (ms : Word32) (x : Word32) : (s.setDeadline ms).deadlineIn x = s.deadlineIn x := rfl
@[simp] theorem State.setDeadline_expired (ms : Word32) (d : Nat) : (s.setDeadline ms).expired d = s.expired d := rfl

/-! ### `State.afterAnswer` -/

@[simp] theorem State.afterAnswer_tick : (s.afterAnswer).tick = s.tick := rfl
@[simp] theorem State.afterAnswer_freq : (s.afterAnswer).freq = s.freq := rfl
@[simp] theorem State.afterAnswer_divisor : (s.afterAnswer).divisor = s.divisor := rfl
@[simp] theorem State.afterAnswer_ctrlState : (s.afterAnswer).ctrlState = s.ctrlState := rfl
@[simp] theorem State.afterAnswer_unresp : (s.afterAnswer).unresp = s.unresp := rfl
@[simp] theorem State.afterAnswer_latchStatus : (s.afterAnswer).latchStatus = s.latchStatus := rfl
@[simp] theorem State.afterAnswer_latchValue : (s.afterAnswer).latchValue = s.latchValue := rfl
@[simp] theorem State.afterAnswer_ackState : (s.afterAnswer).ackState = s.ackState := rfl
@[simp] theorem State.afterAnswer_ackByte : (s.afterAnswer).ackByte = s.ackByte := rfl
@[simp] theorem State.afterAnswer_scanq : (s.afterAnswer).scanq = s.scanq := rfl
@[simp] theorem State.afterAnswer_overrun : (s.afterAnswer).overrun = s.overrun := rfl
@[simp] theorem State.afterAnswer_pos : (s.afterAnswer).pos = s.pos := rfl
@[simp] theorem State.afterAnswer_dl : (s.afterAnswer).dl = s.dl := rfl
@[simp] theorem State.afterAnswer_cur : (s.afterAnswer).cur = s.cur := rfl
@[simp] theorem State.afterAnswer_idx : (s.afterAnswer).idx = s.idx := rfl
@[simp] theorem State.afterAnswer_retries : (s.afterAnswer).retries = s.retries := rfl
@[simp] theorem State.afterAnswer_sreg : (s.afterAnswer).sreg = s.sreg := rfl
@[simp] theorem State.afterAnswer_req : (s.afterAnswer).req = s.req := rfl
@[simp] theorem State.afterAnswer_rsp : (s.afterAnswer).rsp = s.rsp := rfl
@[simp] theorem State.afterAnswer_par : (s.afterAnswer).par = s.par := rfl
@[simp] theorem State.afterAnswer_hostq : (s.afterAnswer).hostq = s.hostq := rfl
@[simp] theorem State.afterAnswer_inputs : (s.afterAnswer).inputs = s.inputs := rfl
@[simp] theorem State.afterAnswer_envq : (s.afterAnswer).envq = s.envq.tail := rfl
@[simp] theorem State.afterAnswer_draws : (s.afterAnswer).draws = if s.envq.isEmpty then s.draws + 1 else s.draws := rfl
@[simp] theorem State.afterAnswer_trace : (s.afterAnswer).trace = s.trace := rfl
@[simp] theorem State.afterAnswer_modulus : (s.afterAnswer).modulus = s.modulus := rfl
@[simp] theorem State.afterAnswer_deadlineIn (x : Word32) : (s.afterAnswer).deadlineIn x = s.deadlineIn x := rfl
@[simp] theorem State.afterAnswer_expired (d : Nat) : (s.afterAnswer).expired d = s.expired d := rfl

/-! ### `State.afterRead` -/

@[simp] theorem State.afterRead_tick (p : Port) : (s.afterRead p).tick = s.tick := rfl
@[simp] theorem State.afterRead_freq (p : Port) : (s.afterRead p).freq = s.freq := rfl
@[simp] theorem State.afterRead_divisor (p : Port) : (s.afterRead p).divisor = s.divisor := rfl
@[simp] theorem State.afterRead_ctrlState (p : Port) : (s.afterRead p).ctrlState = s.ctrlState := rfl
@[simp] theorem State.afterRead_unresp (p : Port) : (s.afterRead p).unresp = s.unresp := rfl
@[simp] theorem State.afterRead_latchStatus (p : Port) : (s.afterRead p).latchStatus = s.latchStatus := rfl
@[simp] theorem State.afterRead_latchValue (p : Port) : (s.afterRead p).latchValue = s.latchValue := rfl
@[simp] theorem State.afterRead_ackState (p : Port) : (s.afterRead p).ackState = s.ackState := rfl
@[simp] theorem State.afterRead_ackByte (p : Port) : (s.afterRead p).ackByte = s.ackByte := rfl
@[simp] theorem State.afterRead_scanq (p : Port) : (s.afterRead p).scanq = s.scanq := rfl
@[simp] theorem State.afterRead_overrun (p : Port) : (s.afterRead p).overrun = s.overrun := rfl
@[simp] theorem State.afterRead_pos (p : Port) : (s.afterRead p).pos = s.pos := rfl
@[simp] theorem State.afterRead_dl (p : Port) : (s.afterRead p).dl = s.dl := rfl
@[simp] theorem State.afterRead_cur (p : Port) : (s.afterRead p).cur = s.cur := rfl
@[simp] theorem State.afterRead_idx (p : Port) : (s.afterRead p).idx = s.idx := rfl
@[simp] theorem State.afterRead_retries (p : Port) : (s.afterRead p).retries = s.retries := rfl
@[simp] theorem State.afterRead_sreg (p : Port) : (s.afterRead p).sreg = s.sreg := rfl
@[simp] theorem State.afterRead_req (p : Port) : (s.afterRead p).req = s.req := rfl
@[simp] theorem State.afterRead_rsp (p : Port) : (s.afterRead p).rsp = s.rsp := rfl
@[simp] theorem State.afterRead_par (p : Port) : (s.afterRead p).par = s.par := rfl
@[simp] theorem State.afterRead_hostq (p : Port) : (s.afterRead p).hostq = s.hostq := rfl
@[simp] theorem State.afterRead_inputs (p : Port) : (s.afterRead p).inputs = s.inputs := rfl
@[simp] theorem State.afterRead_envq (p : Port) : (s.afterRead p).envq = s.envq.tail := rfl
@[simp] theorem State.afterRead_draws (p : Port) : (s.afterRead p).draws = if s.envq.isEmpty then s.draws + 1 else s.draws := rfl
@[simp] theorem State.afterRead_trace (p : Port) : (s.afterRead p).trace = .ioR p (s.envAnswer p) :: s.trace := rfl
@[simp] theorem State.afterRead_modulus (p : Port) : (s.afterRead p).modulus = s.modulus := rfl
@[simp] theorem State.afterRead_deadlineIn (p : Port) (x : Word32) : (s.afterRead p).deadlineIn x = s.deadlineIn x := rfl
@[simp] theorem State.afterRead_expired (p : Port) (d : Nat) : (s.afterRead p).expired d = s.expired d := rfl

/-! ### `State.readStatus` -/

@[simp] theorem State.readStatus_tick : (s.readStatus).tick = s.tick := rfl
@[simp] theorem State.readStatus_freq : (s.readStatus).freq = s.freq := rfl
@[simp] theorem State.readStatus_divisor : (s.readStatus).divisor = s.divisor := rfl
@[simp] theorem State.readStatus_ctrlState : (s.readStatus).ctrlState = s.ctrlState := rfl
@[simp] theorem State.readStatus_unresp : (s.readStatus).unresp = s.unresp := rfl
@[simp] theorem State.readStatus_latchStatus : (s.readStatus).latchStatus = s.latchStatus := rfl
@[simp] theorem State.readStatus_latchValue : (s.readStatus).latchValue = s.latchValue := rfl
@[simp] theorem State.readStatus_ackState : (s.readStatus).ackState = s.ackState := rfl
@[simp] theorem State.readStatus_ackByte : (s.readStatus).ackByte = s.ackByte := rfl
@[simp] theorem State.readStatus_scanq : (s.readStatus).scanq = s.scanq := rfl
@[simp] theorem State.readStatus_overrun : (s.readStatus).overrun = s.overrun := rfl
@[simp] theorem State.readStatus_pos : (s.readStatus).pos = s.pos := rfl
@[simp] theorem State.readStatus_dl : (s.readStatus).dl = s.dl := rfl
@[simp] theorem State.readStatus_cur : (s.readStatus).cur = s.cur := rfl
@[simp] theorem State.readStatus_idx : (s.readStatus).idx = s.idx := rfl
@[simp] theorem State.readStatus_retries : (s.readStatus).retries = s.retries := rfl
@[simp] theorem State.readStatus_sreg : (s.readStatus).sreg = s.envAnswer s.par.portPs2StCmd := rfl
@[simp] theorem State.readStatus_req : (s.readStatus).req = s.req := rfl
@[simp] theorem State.readStatus_rsp : (s.readStatus).rsp = s.rsp := rfl
@[simp] theorem State.readStatus_par : (s.readStatus).par = s.par := rfl
@[simp] theorem State.readStatus_hostq : (s.readStatus).hostq = s.hostq := rfl
@[simp] theorem State.readStatus_inputs : (s.readStatus).inputs = s.inputs := rfl
@[simp] theorem State.readStatus_envq : (s.readStatus).envq = s.envq.tail := rfl
@[simp] theorem State.readStatus_draws : (s.readStatus).draws = if s.envq.isEmpty then s.draws + 1 else s.draws := rfl
@[simp] theorem State.readStatus_trace : (s.readStatus).trace = .ioR s.par.portPs2StCmd (s.envAnswer s.par.portPs2StCmd) :: s.trace := rfl
@[simp] theorem State.readStatus_modulus : (s.readStatus).modulus = s.modulus := rfl
@[simp] theorem State.readStatus_deadlineIn (x : Word32) : (s.readStatus).deadlineIn x = s.deadlineIn x := rfl
@[simp] theorem State.readStatus_expired (d : Nat) : (s.readStatus).expired d = s.expired d := rfl

/-! ### `State.readData` -/

@[simp] theorem State.readData_tick : (s.readData).tick = s.tick := rfl
@[simp] theorem State.readData_freq : (s.readData).freq = s.freq := rfl
@[simp] theorem State.readData_divisor : (s.readData).divisor = s.divisor := rfl
@[simp] theorem State.readData_ctrlState : (s.readData).ctrlState = s.ctrlState := rfl
@[simp] theorem State.readData_unresp : (s.readData).unresp = s.unresp := rfl
@[simp] theorem State.readData_latchStatus : (s.readData).latchStatus = s.latchStatus := rfl
@[simp] theorem State.readData_latchValue : (s.readData).latchValue = s.latchValue := rfl
@[simp] theorem State.readData_ackState : (s.readData).ackState = s.ackState := rfl
@[simp] theorem State.readData_ackByte : (s.readData).ackByte = s.ackByte := rfl
@[simp] theorem State.readData_scanq : (s.readData).scanq = s.scanq := rfl
@[simp] theorem State.readData_overrun : (s.readData).overrun = s.overrun := rfl
@[simp] theorem State.readData_pos : (s.readData).pos = s.pos := rfl
@[simp] theorem State.readData_dl : (s.readData).dl = s.dl := rfl
@[simp] theorem State.readData_cur : (s.readData).cur = s.envAnswer s.par.portPs2Data := rfl
@[simp] theorem State.readData_idx : (s.readData).idx = s.idx := rfl
@[simp] theorem State.readData_retries : (s.readData).retries = s.retries := rfl
@[simp] theorem State.readData_sreg : (s.readData).sreg = s.sreg := rfl
@[simp] theorem State.readData_req : (s.readData).req = s.req := rfl
@[simp] theorem State.readData_rsp : (s.readData).rsp = s.rsp := rfl
@[simp] theorem State.readData_par : (s.readData).par = s.par := rfl
@[simp] theorem State.readData_hostq : (s.readData).hostq = s.hostq := rfl
@[simp] theorem State.readData_inputs : (s.readData).inputs = s.inputs := rfl
@[simp] theorem State.readData_envq : (s.readData).envq = s.envq.tail := rfl
@[simp] theorem State.readData_draws : (s.readData).draws = if s.envq.isEmpty then s.draws + 1 else s.draws := rfl
@[simp] theorem State.readData_trace : (s.readData).trace = .ioR s.par.portPs2Data (s.envAnswer s.par.portPs2Data) :: s.trace := rfl
@[simp] theorem State.readData_modulus : (s.readData).modulus = s.modulus := rfl
@[simp] theorem State.readData_deadlineIn (x : Word32) : (s.readData).deadlineIn x = s.deadlineIn x := rfl
@[simp] theorem State.readData_expired (d : Nat) : (s.readData).expired d = s.expired d := rfl

/-! ### `State.ioWrite` -/

@[simp] theorem State.ioWrite_tick (p : Port) (b : Byte) : (s.ioWrite p b).tick = s.tick := rfl
@[simp] theorem State.ioWrite_freq (p : Port) (b : Byte) : (s.ioWrite p b).freq = s.freq := rfl
@[simp] theorem State.ioWrite_divisor (p : Port) (b : Byte) : (s.ioWrite p b).divisor = s.divisor := rfl
@[simp] theorem State.ioWrite_ctrlState (p : Port) (b : Byte) : (s.ioWrite p b).ctrlState = s.ctrlState := rfl
@[simp] theorem State.ioWrite_unresp (p : Port) (b : Byte) : (s.ioWrite p b).unresp = s.unresp := rfl
@[simp] theorem State.ioWrite_latchStatus (p : Port) (b : Byte) : (s.ioWrite p b).latchStatus = s.latchStatus := rfl
@[simp] theorem State.ioWrite_latchValue (p : Port) (b : Byte) : (s.ioWrite p b).latchValue = s.latchValue := rfl
@[simp] theorem State.ioWrite_ackState (p : Port) (b : Byte) : (s.ioWrite p b).ackState = s.ackState := rfl
@[simp] theorem State.ioWrite_ackByte (p : Port) (b : Byte) : (s.ioWrite p b).ackByte = s.ackByte := rfl
@[simp] theorem State.ioWrite_scanq (p : Port) (b : Byte) : (s.ioWrite p b).scanq = s.scanq := rfl
@[simp] theorem State.ioWrite_overrun (p : Port) (b : Byte) : (s.ioWrite p b).overrun = s.overrun := rfl
@[simp] theorem State.ioWrite_pos (p : Port) (b : Byte) : (s.ioWrite p b).pos = s.pos := rfl
@[simp] theorem State.ioWrite_dl (p : Port) (b : Byte) : (s.ioWrite p b).dl = s.dl := rfl
@[simp] theorem State.ioWrite_cur (p : Port) (b : Byte) : (s.ioWrite p b).cur = s.cur := rfl
@[simp] theorem State.ioWrite_idx (p : Port) (b : Byte) : (s.ioWrite p b).idx = s.idx := rfl
@[simp] theorem State.ioWrite_retries (p : Port) (b : Byte) : (s.ioWrite p b).retries = s.retries := rfl
@[simp] theorem State.ioWrite_sreg (p : Port) (b : Byte) : (s.ioWrite p b).sreg = s.sreg := rfl
@[simp] theorem State.ioWrite_req (p : Port) (b : Byte) : (s.ioWrite p b).req = s.req := rfl
@[simp] theorem State.ioWrite_rsp (p : Port) (b : Byte) : (s.ioWrite p b).rsp = s.rsp := rfl
@[simp] theorem State.ioWrite_par (p : Port) (b : Byte) : (s.ioWrite p b).par = s.par := rfl
@[simp] theorem State.ioWrite_hostq (p : Port) (b : Byte) : (s.ioWrite p b).hostq = s.hostq := rfl
@[simp] theorem State.ioWrite_inputs (p : Port) (b : Byte) : (s.ioWrite p b).inputs = s.inputs := rfl
@[simp] theorem State.ioWrite_envq (p : Port) (b : Byte) : (s.ioWrite p b).envq = s.envq := rfl
@[simp] theorem State.ioWrite_draws (p : Port) (b : Byte) : (s.ioWrite p b).draws = s.draws := rfl
@[simp] theorem State.ioWrite_trace (p : Port) (b : Byte) : (s.ioWrite p b).trace = .ioW p b :: s.trace := rfl
@[simp] theorem State.ioWrite_modulus (p : Port) (b : Byte) : (s.ioWrite p b).modulus = s.modulus := rfl
@[simp] theorem State.ioWrite_deadlineIn (p : Port) (b : Byte) (x : Word32) : (s.ioWrite p b).deadlineIn x = s.deadlineIn x := rfl
@[simp] theorem State.ioWrite_expired (p : Port) (b : Byte) (d : Nat) : (s.ioWrite p b).expired d = s.expired d := rfl

/-! ### `State.respond` -/

@[simp] theorem State.respond_tick (st : Status) (v : Word32) : (s.respond st v).tick = s.tick := rfl
@[simp] theorem State.respond_freq (st : Status) (v : Word32) : (s.respond st v).freq = s.freq := rfl
@[simp] theorem State.respond_divisor (st : Status) (v : Word32) : (s.respond st v).divisor = s.divisor := rfl
@[simp] theorem State.respond_ctrlState (st : Status) (v : Word32) : (s.respond st v).ctrlState = s.ctrlState := rfl
@[simp] theorem State.respond_unresp (st : Status) (v : Word32) : (s.respond st v).unresp = s.unresp := rfl
@[simp] theorem State.respond_latchStatus (st : Status) (v : Word32) : (s.respond st v).latchStatus = s.latchStatus := rfl
@[simp] theorem State.respond_latchValue (st : Status) (v : Word32) : (s.respond st v).latchValue = s.latchValue := rfl
@[simp] theorem State.respond_ackState (st : Status) (v : Word32) : (s.respond st v).ackState = s.ackState := rfl
@[simp] theorem State.respond_ackByte (st : Status) (v : Word32) : (s.respond st v).ackByte = s.ackByte := rfl
@[simp] theorem State.respond_scanq (st : Status) (v : Word32) : (s.respond st v).scanq = s.scanq := rfl
@[simp] theorem State.respond_overrun (st : Status) (v : Word32) : (s.respond st v).overrun = s.overrun := rfl
@[simp] theorem State.respond_pos (st : Status) (v : Word32) : (s.respond st v).pos = .idle := rfl
@[simp] theorem State.respond_dl (st : Status) (v : Word32) : (s.respond st v).dl = s.dl := rfl
@[simp] theorem State.respond_cur (st : Status) (v : Word32) : (s.respond st v).cur = s.cur := rfl
@[simp] theorem State.respond_idx (st : Status) (v : Word32) : (s.respond st v).idx = s.idx := rfl
@[simp] theorem State.respond_retries (st : Status) (v : Word32) : (s.respond st v).retries = s.retries := rfl
@[simp] theorem State.respond_sreg (st : Status) (v : Word32) : (s.respond st v).sreg = s.sreg := rfl
@[simp] theorem State.respond_req (st : Status) (v : Word32) : (s.respond st v).req = s.req := rfl
@[simp] theorem State.respond_rsp (st : Status) (v : Word32) : (s.respond st v).rsp = responseWord st v := rfl
@[simp] theorem State.respond_par (st : Status) (v : Word32) : (s.respond st v).par = s.par := rfl
@[simp] theorem State.respond_hostq (st : Status) (v : Word32) : (s.respond st v).hostq = s.hostq := rfl
@[simp] theorem State.respond_inputs (st : Status) (v : Word32) : (s.respond st v).inputs = s.inputs := rfl
@[simp] theorem State.respond_envq (st : Status) (v : Word32) : (s.respond st v).envq = s.envq := rfl
@[simp] theorem State.respond_draws (st : Status) (v : Word32) : (s.respond st v).draws = s.draws := rfl
@[simp] theorem State.respond_trace (st : Status) (v : Word32) : (s.respond st v).trace = .rsp st v :: s.trace := rfl
@[simp] theorem State.respond_modulus (st : Status) (v : Word32) : (s.respond st v).modulus = s.modulus := rfl
@[simp] theorem State.respond_deadlineIn (st : Status) (v : Word32) (x : Word32) : (s.respond st v).deadlineIn x = s.deadlineIn x := rfl
@[simp] theorem State.respond_expired (st : Status) (v : Word32) (d : Nat) : (s.respond st v).expired d = s.expired d := rfl

/-! ### `State.setAck` -/

@[simp] theorem State.setAck_tick (a : AckState) : (s.setAck a).tick = s.tick := rfl
@[simp] theorem State.setAck_freq (a : AckState) : (s.setAck a).freq = s.freq := rfl
@[simp] theorem State.setAck_divisor (a : AckState) : (s.setAck a).divisor = s.divisor := rfl
@[simp] theorem State.setAck_ctrlState (a : AckState) : (s.setAck a).ctrlState = s.ctrlState := rfl
@[simp] theorem State.setAck_unresp (a : AckState) : (s.setAck a).unresp = s.unresp := rfl
@[simp] theorem State.setAck_latchStatus (a : AckState) : (s.setAck a).latchStatus = s.latchStatus := rfl
@[simp] theorem State.setAck_latchValue (a : AckState) : (s.setAck a).latchValue = s.latchValue := rfl
@[simp] theorem State.setAck_ackState (a : AckState) : (s.setAck a).ackState = a := rfl
@[simp] theorem State.setAck_ackByte (a : AckState) : (s.setAck a).ackByte = s.ackByte := rfl
@[simp] theorem State.setAck_scanq (a : AckState) : (s.setAck a).scanq = s.scanq := rfl
@[simp] theorem State.setAck_overrun (a : AckState) : (s.setAck a).overrun = s.overrun := rfl
@[simp] theorem State.setAck_pos (a : AckState) : (s.setAck a).pos = s.pos := rfl
@[simp] theorem State.setAck_dl (a : AckState) : (s.setAck a).dl = s.dl := rfl
@[simp] theorem State.setAck_cur (a : AckState) : (s.setAck a).cur = s.cur := rfl
@[simp] theorem State.setAck_idx (a : AckState) : (s.setAck a).idx = s.idx := rfl
@[simp] theorem State.setAck_retries (a : AckState) : (s.setAck a).retries = s.retries := rfl
@[simp] theorem State.setAck_sreg (a : AckState) : (s.setAck a).sreg = s.sreg := rfl
@[simp] theorem State.setAck_req (a : AckState) : (s.setAck a).req = s.req := rfl
@[simp] theorem State.setAck_rsp (a : AckState) : (s.setAck a).rsp = s.rsp := rfl
@[simp] theorem State.setAck_par (a : AckState) : (s.setAck a).par = s.par := rfl
@[simp] theorem State.setAck_hostq (a : AckState) : (s.setAck a).hostq = s.hostq := rfl
@[simp] theorem State.setAck_inputs (a : AckState) : (s.setAck a).inputs = s.inputs := rfl
@[simp] theorem State.setAck_envq (a : AckState) : (s.setAck a).envq = s.envq := rfl
@[simp] theorem State.setAck_draws (a : AckState) : (s.setAck a).draws = s.draws := rfl
@[simp] theorem State.setAck_trace (a : AckState) : (s.setAck a).trace = s.trace := rfl
@[simp] theorem State.setAck_modulus (a : AckState) : (s.setAck a).modulus = s.modulus := rfl
@[simp] theorem State.setAck_deadlineIn (a : AckState) (x : Word32) : (s.setAck a).deadlineIn x = s.deadlineIn x := rfl
@[simp] theorem State.setAck_expired (a : AckState) (d : Nat) : (s.setAck a).expired d = s.expired d := rfl

/-! ### `State.setCtrl` -/

@[simp] theorem State.setCtrl_tick (c : CtrlState) : (s.setCtrl c).tick = s.tick := rfl
@[simp] theorem State.setCtrl_freq (c : CtrlState) : (s.setCtrl c).freq = s.freq := rfl
@[simp] theorem State.setCtrl_divisor (c : CtrlState) : (s.setCtrl c).divisor = s.divisor := rfl
@[simp] theorem State.setCtrl_ctrlState (c : CtrlState) : (s.setCtrl c).ctrlState = c := rfl
@[simp] theorem State.setCtrl_unresp (c : CtrlState) : (s.setCtrl c).unresp = s.unresp := rfl
@[simp] theorem State.setCtrl_latchStatus (c : CtrlState) : (s.setCtrl c).latchStatus = s.latchStatus := rfl
@[simp] theorem State.setCtrl_latchValue (c : CtrlState) : (s.setCtrl c).latchValue = s.latchValue := rfl
@[simp] theorem State.setCtrl_ackState (c : CtrlState) : (s.setCtrl c).ackState = s.ackState := rfl
@[simp] theorem State.setCtrl_ackByte (c : CtrlState) : (s.setCtrl c).ackByte = s.ackByte := rfl
@[simp] theorem State.setCtrl_scanq (c : CtrlState) : (s.setCtrl c).scanq = s.scanq := rfl
@[simp] theorem State.setCtrl_overrun (c : CtrlState) : (s.setCtrl c).overrun = s.overrun := rfl
@[simp] theorem State.setCtrl_pos (c : CtrlState) : (s.setCtrl c).pos = s.pos := rfl
@[simp] theorem State.setCtrl_dl (c : CtrlState) : (s.setCtrl c).dl = s.dl := rfl
@[simp] theorem State.setCtrl_cur (c : CtrlState) : (s.setCtrl c).cur = s.cur := rfl
@[simp] theorem State.setCtrl_idx (c : CtrlState) : (s.setCtrl c).idx = s.idx := rfl
@[simp] theorem State.setCtrl_retries (c : CtrlState) : (s.setCtrl c).retries = s.retries := rfl
@[simp] theorem State.setCtrl_sreg (c : CtrlState) : (s.setCtrl c).sreg = s.sreg := rfl
@[simp] theorem State.setCtrl_req (c : CtrlState) : (s.setCtrl c).req = s.req := rfl
@[simp] theorem State.setCtrl_rsp (c : CtrlState) : (s.setCtrl c).rsp = s.rsp := rfl
@[simp] theorem State.setCtrl_par (c : CtrlState) : (s.setCtrl c).par = s.par := rfl
@[simp] theorem State.setCtrl_hostq (c : CtrlState) : (s.setCtrl c).hostq = s.hostq := rfl
@[simp] theorem State.setCtrl_inputs (c : CtrlState) : (s.setCtrl c).inputs = s.inputs := rfl
@[simp] theorem State.setCtrl_envq (c : CtrlState) : (s.setCtrl c).envq = s.envq := rfl
@[simp] theorem State.setCtrl_draws (c : CtrlState) : (s.setCtrl c).draws = s.draws := rfl
@[simp] theorem State.setCtrl_trace (c : CtrlState) : (s.setCtrl c).trace = s.trace := rfl
@[simp] theorem State.setCtrl_modulus (c : CtrlState) : (s.setCtrl c).modulus = s.modulus := rfl
@[simp] theorem State.setCtrl_deadlineIn (c : CtrlState) (x : Word32) : (s.setCtrl c).deadlineIn x = s.deadlineIn x := rfl
@[simp] theorem State.setCtrl_expired (c : CtrlState) (d : Nat) : (s.setCtrl c).expired d = s.expired d := rfl

/-! ### `State.latch` -/

@[simp] theorem State.latch_tick (st : Status) (v : Word32) : (s.latch st v).tick = s.tick := rfl
@[simp] theorem State.latch_freq (st : Status) (v : Word32) : (s.latch st v).freq = s.freq := rfl
@[simp] theorem State.latch_divisor (st : Status) (v : Word32) : (s.latch st v).divisor = s.divisor := rfl
@[simp] theorem State.latch_ctrlState (st : Status) (v : Word32) : (s.latch st v).ctrlState = s.ctrlState := rfl
@[simp] theorem State.latch_unresp (st : Status) (v : Word32) : (s.latch st v).unresp = true := rfl
@[simp] theorem State.latch_latchStatus (st : Status) (v : Word32) : (s.latch st v).latchStatus = st := rfl
@[simp] theorem State.latch_latchValue (st : Status) (v : Word32) : (s.latch st v).latchValue = v := rfl
@[simp] theorem State.latch_ackState (st : Status) (v : Word32) : (s.latch st v).ackState = s.ackState := rfl
@[simp] theorem State.latch_ackByte (st : Status) (v : Word32) : (s.latch st v).ackByte = s.ackByte := rfl
@[simp] theorem State.latch_scanq (st : Status) (v : Word32) : (s.latch st v).scanq = s.scanq := rfl
@[simp] theorem State.latch_overrun (st : Status) (v : Word32) : (s.latch st v).overrun = s.overrun := rfl
@[simp] theorem State.latch_pos (st : Status) (v : Word32) : (s.latch st v).pos = s.pos := rfl
@[simp] theorem State.latch_dl (st : Status) (v : Word32) : (s.latch st v).dl = s.dl := rfl
@[simp] theorem State.latch_cur (st : Status) (v : Word32) : (s.latch st v).cur = s.cur := rfl
@[simp] theorem State.latch_idx (st : Status) (v : Word32) : (s.latch st v).idx = s.idx := rfl
@[simp] theorem State.latch_retries (st : Status) (v : Word32) : (s.latch st v).retries = s.retries := rfl
@[simp] theorem State.latch_sreg (st : Status) (v : Word32) : (s.latch st v).sreg = s.sreg := rfl
@[simp] theorem State.latch_req (st : Status) (v : Word32) : (s.latch st v).req = s.req := rfl
@[simp] theorem State.latch_rsp (st : Status) (v : Word32) : (s.latch st v).rsp = s.rsp := rfl
@[simp] theorem State.latch_par (st : Status) (v : Word32) : (s.latch st v).par = s.par := rfl
@[simp] theorem State.latch_hostq (st : Status) (v : Word32) : (s.latch st v).hostq = s.hostq := rfl
@[simp] theorem State.latch_inputs (st : Status) (v : Word32) : (s.latch st v).inputs = s.inputs := rfl
@[simp] theorem State.latch_envq (st : Status) (v : Word32) : (s.latch st v).envq = s.envq := rfl
@[simp] theorem State.latch_draws (st : Status) (v : Word32) : (s.latch st v).draws = s.draws := rfl
@[simp] theorem State.latch_trace (st : Status) (v : Word32) : (s.latch st v).trace = s.trace := rfl
@[simp] theorem State.latch_modulus (st : Status) (v : Word32) : (s.latch st v).modulus = s.modulus := rfl
@[simp] theorem State.latch_deadlineIn (st : Status) (v : Word32) (x : Word32) : (s.latch st v).deadlineIn x = s.deadlineIn x := rfl
@[simp] theorem State.latch_expired (st : Status) (v : Word32) (d : Nat) : (s.latch st v).expired d = s.expired d := rfl

/-! ### `State.arm` -/

@[simp] theorem State.arm_tick (ms : Word32) : (s.arm ms).tick = s.tick := rfl
@[simp] theorem State.arm_freq (ms : Word32) : (s.arm ms).freq = s.freq := rfl
@[simp] theorem State.arm_divisor (ms : Word32) : (s.arm ms).divisor = s.divisor := rfl
@[simp] theorem State.arm_ctrlState (ms : Word32) : (s.arm ms).ctrlState = s.ctrlState := rfl
@[simp] theorem State.arm_unresp (ms : Word32) : (s.arm ms).unresp = s.unresp := rfl
@[simp] theorem State.arm_latchStatus (ms : Word32) : (s.arm ms).latchStatus = s.latchStatus := rfl
@[simp] theorem State.arm_latchValue (ms : Word32) : (s.arm ms).latchValue = s.latchValue := rfl
@[simp] theorem State.arm_ackState (ms : Word32) : (s.arm ms).ackState = .pending := rfl
@[simp] theorem State.arm_ackByte (ms : Word32) : (s.arm ms).ackByte = s.ackByte := rfl
@[simp] theorem State.arm_scanq (ms : Word32) : (s.arm ms).scanq = s.scanq := rfl
@[simp] theorem State.arm_overrun (ms : Word32) : (s.arm ms).overrun = s.overrun := rfl
@[simp] theorem State.arm_pos (ms : Word32) : (s.arm ms).pos = s.pos := rfl
@[simp] theorem State.arm_dl (ms : Word32) : (s.arm ms).dl = s.deadlineIn ms := rfl
@[simp] theorem State.arm_cur (ms : Word32) : (s.arm ms).cur = s.cur := rfl
@[simp] theorem State.arm_idx (ms : Word32) : (s.arm ms).idx = s.idx := rfl
@[simp] theorem State.arm_retries (ms : Word32) : (s.arm ms).retries = s.retries := rfl
@[simp] theorem State.arm_sreg (ms : Word32) : (s.arm ms).sreg = s.sreg := rfl
@[simp] theorem State.arm_req (ms : Word32) : (s.arm ms).req = s.req := rfl
@[simp] theorem State.arm_rsp (ms : Word32) : (s.arm ms).rsp = s.rsp := rfl
@[simp] theorem State.arm_par (ms : Word32) : (s.arm ms).par = s.par := rfl
@[simp] theorem State.arm_hostq (ms : Word32) : (s.arm ms).hostq = s.hostq := rfl
@[simp] theorem State.arm_inputs (ms : Word32) : (s.arm ms).inputs = s.inputs := rfl
@[simp] theorem State.arm_envq (ms : Word32) : (s.arm ms).envq = s.envq := rfl
@[simp] theorem State.arm_draws (ms : Word32) : (s.arm ms).draws = s.draws := rfl
@[simp] theorem State.arm_trace (ms : Word32) : (s.arm ms).trace = s.trace := rfl
@[simp] theorem State.arm_modulus (ms : Word32) : (s.arm ms).modulus = s.modulus := rfl
@[simp] theorem State.arm_deadlineIn (ms : Word32) (x : Word32) : (s.arm ms).deadlineIn x = s.deadlineIn x := rfl
@[simp] theorem State.arm_expired (ms : Word32) (d : Nat) : (s.arm ms).expired d = s.expired d := rfl

/-! ### `State.curByte` -/

/-- Where no byte is being written, `CUR` is the byte last read. -/
theorem State.curByte_of_none (h : s.byteBeingWritten = none) : s.curByte = s.cur := by simp [State.curByte, h]

/-- Where a byte is being written, `CUR` is that byte. -/
theorem State.curByte_of_some {b : Byte} (h : s.byteBeingWritten = some b) : s.curByte = b := by
  simp [State.curByte, h]

@[simp] theorem State.byteBeingWritten_respond (st : Status) (v : Word32) :
    (s.respond st v).byteBeingWritten = none := rfl
@[simp] theorem State.curByte_respond (st : Status) (v : Word32) : (s.respond st v).curByte = s.cur := rfl

end Sys2Proof.Machine
end

