-- ==== Sys2Proof/Laws/Engine.lean ====
section
/-! SUPPORT. The micro-routines: everything the action at a label can do, as one elimination lemma per routine.
To show `P` of the state after the action, show it of each state the action can lead to. -/

namespace Sys2Proof.Machine

variable {P : State → Prop} {s : State}

/-! ### Status conditions -/

/-- The condition "IBF clear" of `write_to_device` and `cmd_write` is bit 1 of the status byte (R81). -/
theorem inputBufferClear_iff (st : Byte) : st &&& 0x02 = 0x00 ↔ st.getLsbD 1 = false := by
  revert st; decide +kernel

/-- The condition "OBF set" of `read_from_device` is bit 0 of the status byte (R81). -/
theorem outputBufferFull_iff (st : Byte) : st &&& 0x01 = 0x01 ↔ st.getLsbD 0 = true := by
  revert st; decide +kernel

/-- With an answer lined up, that byte is read. -/
theorem envAnswer_cons {b : Byte} {rest : List Byte} (h : s.envq = b :: rest) (p : Port) :
    s.envAnswer p = b := by
  simp [State.envAnswer, h]

/-! ### The polling engine -/

/-- Everything `poll_wait` can do at a label. -/
theorem pollWait_elim {mask want : Byte} {ms : Word32} {at_ : PollPc → Position}
    {ret : Status → State → State} (l : PollPc)
    (p0 : l = .p0 → P ((s.setDeadline ms).goto (at_ .p1)))
    (met : l = .p1 → s.envAnswer s.par.portPs2StCmd &&& mask = want → P (ret .ok s.readStatus))
    (unmet : l = .p1 → s.envAnswer s.par.portPs2StCmd &&& mask ≠ want → P (s.readStatus.goto (at_ .p2)))
    (timeout : l = .p2 → s.expired s.dl = true → P (ret .timeout s))
    (again : l = .p2 → s.expired s.dl = false → P (s.goto (at_ .p1))) :
    P (pollWait mask want ms l at_ ret s) := by
  cases l with
  | p0 => exact p0 rfl
  | p1 =>
    by_cases h : s.envAnswer s.par.portPs2StCmd &&& mask = want
    · simpa [pollWait, h] using met rfl h
    · simpa [pollWait, h] using unmet rfl h
  | p2 =>
    by_cases h : s.expired s.dl = true
    · simpa [pollWait, h] using timeout rfl h
    · simpa [pollWait, h] using again rfl (by simpa using h)

/-- Everything `write_to_device` can do at a label. -/
theorem writeToDevice_elim {b : Byte} {arm : Bool} {at_ : WritePc → Position}
    {ret : Status → State → State} (l : WritePc)
    (p0 : l = .poll .p0 → P ((s.setDeadline s.par.tPollMs).goto (at_ (.poll .p1))))
    (free : l = .poll .p1 → (s.envAnswer s.par.portPs2StCmd).getLsbD 1 = false → P (s.readStatus.goto (at_ .w1)))
    (full : l = .poll .p1 → (s.envAnswer s.par.portPs2StCmd).getLsbD 1 = true →
      P (s.readStatus.goto (at_ (.poll .p2))))
    (timeout : l = .poll .p2 → s.expired s.dl = true → P (ret .timeout s))
    (again : l = .poll .p2 → s.expired s.dl = false → P (s.goto (at_ (.poll .p1))))
    (armed : l = .w1 → arm = true → P (ret .ok ((s.ioWrite s.par.portPs2Data b).arm s.par.tAckMs)))
    (unarmed : l = .w1 → arm = false → P (ret .ok (s.ioWrite s.par.portPs2Data b))) :
    P (writeToDevice b arm l at_ ret s) := by
  cases l with
  | poll l =>
    rw [writeToDevice]
    refine pollWait_elim (P := P) (at_ := fun l => at_ (.poll l)) l (fun h => p0 (by rw [h])) (fun h c => ?_) (fun h c => full (by rw [h]) ?_)
      (fun h c => ?_) (fun h c => again (by rw [h]) c)
    · simpa using free (by rw [h]) ((inputBufferClear_iff _).1 c)
    · exact Bool.eq_true_of_not_eq_false (fun k => c ((inputBufferClear_iff _).2 k))
    · simpa using timeout (by rw [h]) c
  | w1 =>
    cases arm with
    | true => exact armed rfl rfl
    | false => exact unarmed rfl rfl

/-- Everything `read_from_device` can do at a label. -/
theorem readFromDevice_elim {at_ : ReadPc → Position} {ret : Status → Byte → State → State} (l : ReadPc)
    (p0 : l = .poll .p0 → P ((s.setDeadline s.par.tPollMs).goto (at_ (.poll .p1))))
    (full : l = .poll .p1 → (s.envAnswer s.par.portPs2StCmd).getLsbD 0 = true → P (s.readStatus.goto (at_ .r1)))
    (empty : l = .poll .p1 → (s.envAnswer s.par.portPs2StCmd).getLsbD 0 = false →
      P (s.readStatus.goto (at_ (.poll .p2))))
    (timeout : l = .poll .p2 → s.expired s.dl = true → P (ret .timeout 0 s))
    (again : l = .poll .p2 → s.expired s.dl = false → P (s.goto (at_ (.poll .p1))))
    (read : l = .r1 → P (ret .ok (s.envAnswer s.par.portPs2Data) s.readData)) :
    P (readFromDevice l at_ ret s) := by
  cases l with
  | poll l =>
    rw [readFromDevice]
    refine pollWait_elim (P := P) (at_ := fun l => at_ (.poll l)) l (fun h => p0 (by rw [h])) (fun h c => ?_) (fun h c => empty (by rw [h]) ?_)
      (fun h c => ?_) (fun h c => again (by rw [h]) c)
    · simpa using full (by rw [h]) ((outputBufferFull_iff _).1 c)
    · exact Bool.eq_false_of_not_eq_true (fun k => c ((outputBufferFull_iff _).2 k))
    · simpa using timeout (by rw [h]) c
  | r1 => exact read rfl

/-- Everything `cmd_write` can do at a label. -/
theorem cmdWrite_elim {c : Byte} {at_ : CmdPc → Position} {ret : Status → State → State} (l : CmdPc)
    (p0 : l = .poll .p0 → P ((s.setDeadline s.par.tPollMs).goto (at_ (.poll .p1))))
    (free : l = .poll .p1 → (s.envAnswer s.par.portPs2StCmd).getLsbD 1 = false → P (s.readStatus.goto (at_ .k1)))
    (full : l = .poll .p1 → (s.envAnswer s.par.portPs2StCmd).getLsbD 1 = true →
      P (s.readStatus.goto (at_ (.poll .p2))))
    (timeout : l = .poll .p2 → s.expired s.dl = true → P (ret .timeout s))
    (again : l = .poll .p2 → s.expired s.dl = false → P (s.goto (at_ (.poll .p1))))
    (write : l = .k1 → P (ret .ok (s.ioWrite s.par.portPs2StCmd c))) :
    P (cmdWrite c l at_ ret s) := by
  cases l with
  | poll l =>
    rw [cmdWrite]
    refine pollWait_elim (P := P) (at_ := fun l => at_ (.poll l)) l (fun h => p0 (by rw [h])) (fun h d => ?_) (fun h d => full (by rw [h]) ?_)
      (fun h d => ?_) (fun h d => again (by rw [h]) d)
    · simpa using free (by rw [h]) ((inputBufferClear_iff _).1 d)
    · exact Bool.eq_true_of_not_eq_false (fun k => d ((inputBufferClear_iff _).2 k))
    · simpa using timeout (by rw [h]) d
  | k1 => exact write rfl

/-- Everything `flush` can do at a label. -/
theorem flush_elim {at_ : FlushPc → Position} {ret : Status → State → State} (l : FlushPc)
    (f0 : l = .f0 → P ((s.setDeadline s.par.tFlushMs).goto (at_ .f1)))
    (empty : l = .f1 → (s.envAnswer s.par.portPs2StCmd).getLsbD 0 = false → P (ret .ok s.readStatus))
    (full : l = .f1 → (s.envAnswer s.par.portPs2StCmd).getLsbD 0 = true → P (s.readStatus.goto (at_ .f2)))
    (timeout : l = .f2 → s.expired s.dl = true → P (ret .timeout s))
    (again : l = .f2 → s.expired s.dl = false → P (s.goto (at_ .f3)))
    (discard : l = .f3 → P (s.readData.goto (at_ .f1))) :
    P (flush l at_ ret s) := by
  cases l with
  | f0 => exact f0 rfl
  | f1 =>
    cases h : (s.envAnswer s.par.portPs2StCmd).getLsbD 0 with
    | true => simpa only [flush, State.readStatus_sreg, h, if_true] using full rfl h
    | false => simpa only [flush, State.readStatus_sreg, h, Bool.false_eq_true, if_false] using empty rfl h
  | f2 =>
    cases h : s.expired s.dl with
    | true => simpa [flush, h] using timeout rfl h
    | false => simpa [flush, h] using again rfl h
  | f3 => exact discard rfl

/-! ### The bring-up -/

/-- Everything `ps2_init` can do at a label, apart from the actions inside its polls and its flush that stay there. -/
theorem ps2Init_elim {at_ : InitPc → Position} {ret : Status → Word32 → State → State} (l : InitPc)
    (i0 : l = .i0 → P (({ s with unresp := false }.setCtrl .uninit).goto (at_ (.flush .f0))))
    (i1 : l = .i1 → P ((s.setCtrl .selfTestPending).goto (at_ (.selfCmd (.poll .p0)))))
    (i2 : l = .i2 → P ((s.setCtrl .portTestPending).goto (at_ (.portCmd (.poll .p0)))))
    (flush_ : ∀ k, l = .flush k → P (flush k (fun k => at_ (.flush k))
      (fun r s => if r = .timeout then ret .timeout 0 s else s.goto (at_ .i1)) s))
    (selfCmd : ∀ k, l = .selfCmd k → P (cmdWrite 0xAA k (fun k => at_ (.selfCmd k))
      (fun r s => if r = .timeout then ret .timeout 0 (s.setCtrl .selfTestFailed)
        else s.goto (at_ (.selfRead (.poll .p0)))) s))
    (selfRead : ∀ k, l = .selfRead k → P (readFromDevice k (fun k => at_ (.selfRead k))
      (fun r b s => if r = .timeout then ret .timeout 0 (s.setCtrl .selfTestFailed)
        else if b ≠ 0x55 then ret .controllerFault (pair32 0 b) (s.setCtrl .selfTestFailed)
        else (s.setCtrl .selfTestOk).goto (at_ .i2)) s))
    (portCmd : ∀ k, l = .portCmd k → P (cmdWrite 0xAB k (fun k => at_ (.portCmd k))
      (fun r s => if r = .timeout then ret .timeout 0 (s.setCtrl .portFailed)
        else s.goto (at_ (.portRead (.poll .p0)))) s))
    (portRead : ∀ k, l = .portRead k → P (readFromDevice k (fun k => at_ (.portRead k))
      (fun r b s => if r = .timeout then ret .timeout 0 (s.setCtrl .portFailed)
        else if b ≠ 0x00 then ret .controllerFault (pair32 1 b) (s.setCtrl .portFailed)
        else (s.setCtrl .portReady).goto (at_ (.enable (.poll .p0)))) s))
    (enable : ∀ k, l = .enable k → P (cmdWrite 0xAE k (fun k => at_ (.enable k))
      (fun r s => if r = .timeout then ret .timeout 0 s else ret .ok 0 (s.setCtrl .deviceEnabled)) s)) :
    P (ps2Init l at_ ret s) := by
  cases l with
  | i0 => exact i0 rfl
  | i1 => exact i1 rfl
  | i2 => exact i2 rfl
  | flush k => exact flush_ k rfl
  | selfCmd k => exact selfCmd k rfl
  | selfRead k => exact selfRead k rfl
  | portCmd k => exact portCmd k rfl
  | portRead k => exact portRead k rfl
  | enable k => exact enable k rfl

/-! ### The command protocol -/

/-- Everything one evaluation of `[s1]` can do. -/
theorem awaitAction_elim {bytes : List Byte} {rearm : Bool} {at_ : SendPc → Position}
    {ret : Status → Word32 → State → State}
    (expired : s.ackState = .pending → s.expired s.dl = true → P ((s.setAck .timedOut).goto (at_ .s2)))
    (waits : s.ackState = .pending → s.expired s.dl = false → P (s.goto (at_ .s1)))
    (lastRearm : s.ackState = .acked → s.idx = bytes.length - 1 → rearm = true → P (ret .ok 0 (s.arm s.par.tBatMs)))
    (last : s.ackState = .acked → s.idx = bytes.length - 1 → rearm = false → P (ret .ok 0 (s.setAck .idle)))
    (more : s.ackState = .acked → s.idx ≠ bytes.length - 1 →
      P ({ s.setAck .idle with idx := s.idx + 1, retries := 0 }.goto (at_ (.write (.poll .p0)))))
    (exhausted : s.ackState = .resend → s.retries = s.par.maxRetries →
      P (ret .deviceUnresponsive (pair32 0xFE (bytes.getD 0 0))
        ((s.setAck .idle).latch .deviceUnresponsive (pair32 0xFE (bytes.getD 0 0)))))
    (retry : s.ackState = .resend → s.retries ≠ s.par.maxRetries →
      P ({ s.setAck .idle with retries := s.retries + 1 }.goto (at_ (.write (.poll .p0)))))
    (desync : s.ackState = .desync → P ((s.setAck .idle).goto (at_ .s3)))
    (outside : s.ackState = .idle ∨ s.ackState = .timedOut → P s) :
    P (awaitAction bytes rearm at_ ret s) := by
  cases h : s.ackState with
  | idle => simpa [awaitAction, h] using outside (.inl h)
  | timedOut => simpa [awaitAction, h] using outside (.inr h)
  | desync => simpa [awaitAction, h] using desync h
  | pending =>
    cases e : s.expired s.dl with
    | true => simpa [awaitAction, h, e] using expired h e
    | false => simpa [awaitAction, h, e] using waits h e
  | acked =>
    by_cases e : s.idx = bytes.length - 1
    · cases rearm with
      | true => simpa [awaitAction, ackedAction, h, e] using lastRearm h e rfl
      | false => simpa [awaitAction, ackedAction, h, e] using last h e rfl
    · simpa [awaitAction, ackedAction, h, e] using more h e
  | resend =>
    by_cases e : s.retries = s.par.maxRetries
    · simpa [awaitAction, resendAction, h, e] using exhausted h e
    · simpa [awaitAction, resendAction, h, e] using retry h e

/-- Everything `send_command` can do at a label, apart from the actions inside its write and its flush that stay there. -/
theorem sendCommand_elim {bytes : List Byte} {rearm : Bool} {at_ : SendPc → Position}
    {ret : Status → Word32 → State → State} (l : SendPc)
    (latched : l = .s0 → s.unresp = true → P (ret s.latchStatus s.latchValue s))
    (begins : l = .s0 → s.unresp = false → P ({ s with idx := 0, retries := 0 }.goto (at_ (.write (.poll .p0)))))
    (write : ∀ k, l = .write k → P (writeToDevice (bytes.getD s.idx 0) true k (fun k => at_ (.write k))
      (fun r s => if r = .timeout then ret .timeout 0 (s.latch .timeout 0) else s.goto (at_ .s1)) s))
    (await : l = .s1 → P (awaitAction bytes rearm at_ ret s))
    (s2 : l = .s2 → P (ret .timeout 0 ((s.setAck .idle).latch .timeout 0)))
    (s3 : l = .s3 → P (s.goto (at_ (.flush .f0))))
    (flush_ : ∀ k, l = .flush k → P (flush k (fun k => at_ (.flush k))
      (fun r s => if r = .timeout then ret .protocolError (zext32 s.ackByte) (s.latch .timeout 0)
        else ret .protocolError (zext32 s.ackByte) s) s)) :
    P (sendCommand bytes rearm l at_ ret s) := by
  cases l with
  | s0 =>
    cases h : s.unresp with
    | true => simpa [sendCommand, h] using latched rfl h
    | false => simpa [sendCommand, h] using begins rfl h
  | write k => exact write k rfl
  | s1 => exact await rfl
  | s2 => exact s2 rfl
  | s3 => exact s3 rfl
  | flush k => exact flush_ k rfl

end Sys2Proof.Machine
end

