-- ==== Sys2Proof/Laws/Exec.lean ====
section
/-! SUPPORT. `exec` of each instruction: the one action it runs, where it begins, and everything it can answer. -/

namespace Sys2Proof.Machine

variable {s t : State}

/-- At a label of its own, the instruction runs that action. -/
theorem exec_clkinit (freq : Word32) {l : ClkPc} (h : s.pos = .clkinit l) :
    exec (.clkinit freq) s = .next (clkinitAction freq l s) := by
  simp [exec, execClkinit, positionFor, opOf, Position.op, h]

/-- With the sequencer idle, or at its first label, the instruction begins. -/
theorem exec_clkinit_begin (freq : Word32) (h : s.pos = .idle ∨ s.pos = .clkinit .c1) :
    exec (.clkinit freq) s = .next (clkinitAction freq .c1 s) := by
  rcases h with h | h
  · simp [exec, execClkinit, positionFor, entryOf, h]
  · exact exec_clkinit freq h

/-- The only way the instruction answers a next state. -/
theorem exec_clkinit_next (freq : Word32) (h : exec (.clkinit freq) s = .next t) :
    ∃ l : ClkPc, (s.pos = .clkinit l ∨ (s.pos = .idle ∧ l = .c1)) ∧
      t = clkinitAction freq l s := by
  cases hp : s.pos with
  | clkinit l =>
    rw [exec_clkinit freq hp] at h
    exact ⟨l, .inl rfl, by simpa using h.symm⟩
  | idle =>
    rw [exec_clkinit_begin freq (.inl hp)] at h
    exact ⟨.c1, .inr ⟨rfl, rfl⟩, by simpa using h.symm⟩
  | _ => simp [exec, execClkinit, positionFor, opOf, Position.op, hp] at h

/-- With the sequencer idle, or at its one label, the instruction runs its one action. -/
theorem exec_gettick_begin (h : s.pos = .idle ∨ s.pos = .gettick) :
    exec .gettick s = .next (s.respond .ok (tick32 s.tick)) := by
  rcases h with h | h <;> simp [exec, execGettick, positionFor, entryOf, opOf, Position.op, h]

/-- The only way the instruction answers a next state. -/
theorem exec_gettick_next (h : exec .gettick s = .next t) :
    (s.pos = .gettick ∨ s.pos = .idle) ∧ t = s.respond .ok (tick32 s.tick) := by
  cases hp : s.pos with
  | gettick =>
    rw [exec_gettick_begin (.inr hp)] at h
    exact ⟨.inl rfl, by simpa using h.symm⟩
  | idle =>
    rw [exec_gettick_begin (.inl hp)] at h
    exact ⟨.inr rfl, by simpa using h.symm⟩
  | _ => simp [exec, execGettick, positionFor, opOf, Position.op, hp] at h

/-- With the sequencer idle, or at its one label, the instruction runs its one action. -/
theorem exec_deadline_begin (ms : Word32) (h : s.pos = .idle ∨ s.pos = .deadline) :
    exec (.deadline ms) s = .next (s.respond .ok (tick32 (s.deadlineIn ms))) := by
  rcases h with h | h <;> simp [exec, execDeadline, positionFor, entryOf, opOf, Position.op, h]

/-- The only way the instruction answers a next state. -/
theorem exec_deadline_next (ms : Word32) (h : exec (.deadline ms) s = .next t) :
    (s.pos = .deadline ∨ s.pos = .idle) ∧ t = s.respond .ok (tick32 (s.deadlineIn ms)) := by
  cases hp : s.pos with
  | deadline =>
    rw [exec_deadline_begin ms (.inr hp)] at h
    exact ⟨.inl rfl, by simpa using h.symm⟩
  | idle =>
    rw [exec_deadline_begin ms (.inl hp)] at h
    exact ⟨.inr rfl, by simpa using h.symm⟩
  | _ => simp [exec, execDeadline, positionFor, opOf, Position.op, hp] at h

/-- With the sequencer idle, or at its one label, the instruction runs its one action. -/
theorem exec_expired_begin (d : Word32) (h : s.pos = .idle ∨ s.pos = .expired) :
    exec (.expired d) s = .next (s.respond .ok (if s.expired (d.toNat % s.modulus) then 1 else 0)) := by
  rcases h with h | h <;> simp [exec, execExpired, positionFor, entryOf, opOf, Position.op, h]

/-- The only way the instruction answers a next state. -/
theorem exec_expired_next (d : Word32) (h : exec (.expired d) s = .next t) :
    (s.pos = .expired ∨ s.pos = .idle) ∧ t = s.respond .ok (if s.expired (d.toNat % s.modulus) then 1 else 0) := by
  cases hp : s.pos with
  | expired =>
    rw [exec_expired_begin d (.inr hp)] at h
    exact ⟨.inl rfl, by simpa using h.symm⟩
  | idle =>
    rw [exec_expired_begin d (.inl hp)] at h
    exact ⟨.inr rfl, by simpa using h.symm⟩
  | _ => simp [exec, execExpired, positionFor, opOf, Position.op, hp] at h

/-- At a label of its own, the instruction runs that action. -/
theorem exec_sleep (ms : Word32) {l : SleepPc} (h : s.pos = .sleep l) :
    exec (.sleep ms) s = .next (sleepAction ms l s) := by
  simp [exec, execSleep, positionFor, opOf, Position.op, h]

/-- With the sequencer idle, or at its first label, the instruction begins. -/
theorem exec_sleep_begin (ms : Word32) (h : s.pos = .idle ∨ s.pos = .sleep .s0) :
    exec (.sleep ms) s = .next (sleepAction ms .s0 s) := by
  rcases h with h | h
  · simp [exec, execSleep, positionFor, entryOf, h]
  · exact exec_sleep ms h

/-- The only way the instruction answers a next state. -/
theorem exec_sleep_next (ms : Word32) (h : exec (.sleep ms) s = .next t) :
    ∃ l : SleepPc, (s.pos = .sleep l ∨ (s.pos = .idle ∧ l = .s0)) ∧
      t = sleepAction ms l s := by
  cases hp : s.pos with
  | sleep l =>
    rw [exec_sleep ms hp] at h
    exact ⟨l, .inl rfl, by simpa using h.symm⟩
  | idle =>
    rw [exec_sleep_begin ms (.inl hp)] at h
    exact ⟨.s0, .inr ⟨rfl, rfl⟩, by simpa using h.symm⟩
  | _ => simp [exec, execSleep, positionFor, opOf, Position.op, hp] at h

/-- At a label of its own, the instruction runs that action. -/
theorem exec_ps2wr (byte : Byte) {l : WritePc} (h : s.pos = .ps2wr l) :
    exec (.ps2wr byte) s = .next (writeToDevice byte false l .ps2wr (fun r s => s.respond r 0) s) := by
  simp [exec, execPs2wr, positionFor, opOf, Position.op, h]

/-- With the sequencer idle, or at its first label, the instruction begins. -/
theorem exec_ps2wr_begin (byte : Byte) (h : s.pos = .idle ∨ s.pos = .ps2wr (.poll .p0)) :
    exec (.ps2wr byte) s = .next (writeToDevice byte false (.poll .p0) .ps2wr (fun r s => s.respond r 0) s) := by
  rcases h with h | h
  · simp [exec, execPs2wr, positionFor, entryOf, h]
  · exact exec_ps2wr byte h

/-- The only way the instruction answers a next state. -/
theorem exec_ps2wr_next (byte : Byte) (h : exec (.ps2wr byte) s = .next t) :
    ∃ l : WritePc, (s.pos = .ps2wr l ∨ (s.pos = .idle ∧ l = (.poll .p0))) ∧
      t = writeToDevice byte false l .ps2wr (fun r s => s.respond r 0) s := by
  cases hp : s.pos with
  | ps2wr l =>
    rw [exec_ps2wr byte hp] at h
    exact ⟨l, .inl rfl, by simpa using h.symm⟩
  | idle =>
    rw [exec_ps2wr_begin byte (.inl hp)] at h
    exact ⟨(.poll .p0), .inr ⟨rfl, rfl⟩, by simpa using h.symm⟩
  | _ => simp [exec, execPs2wr, positionFor, opOf, Position.op, hp] at h

/-- At a label of its own, the instruction runs that action. -/
theorem exec_ps2rd {l : ReadPc} (h : s.pos = .ps2rd l) :
    exec .ps2rd s = .next (readFromDevice l .ps2rd (fun r b s => s.respond r (zext32 b)) s) := by
  simp [exec, execPs2rd, positionFor, opOf, Position.op, h]

/-- With the sequencer idle, or at its first label, the instruction begins. -/
theorem exec_ps2rd_begin (h : s.pos = .idle ∨ s.pos = .ps2rd (.poll .p0)) :
    exec .ps2rd s = .next (readFromDevice (.poll .p0) .ps2rd (fun r b s => s.respond r (zext32 b)) s) := by
  rcases h with h | h
  · simp [exec, execPs2rd, positionFor, entryOf, h]
  · exact exec_ps2rd h

/-- The only way the instruction answers a next state. -/
theorem exec_ps2rd_next (h : exec .ps2rd s = .next t) :
    ∃ l : ReadPc, (s.pos = .ps2rd l ∨ (s.pos = .idle ∧ l = (.poll .p0))) ∧
      t = readFromDevice l .ps2rd (fun r b s => s.respond r (zext32 b)) s := by
  cases hp : s.pos with
  | ps2rd l =>
    rw [exec_ps2rd hp] at h
    exact ⟨l, .inl rfl, by simpa using h.symm⟩
  | idle =>
    rw [exec_ps2rd_begin (.inl hp)] at h
    exact ⟨(.poll .p0), .inr ⟨rfl, rfl⟩, by simpa using h.symm⟩
  | _ => simp [exec, execPs2rd, positionFor, opOf, Position.op, hp] at h

/-- At a label of its own, the instruction runs that action. -/
theorem exec_ps2flush {l : FlushPc} (h : s.pos = .ps2flush l) :
    exec .ps2flush s = .next (flush l .ps2flush (fun r s => s.respond r 0) s) := by
  simp [exec, execPs2flush, positionFor, opOf, Position.op, h]

/-- With the sequencer idle, or at its first label, the instruction begins. -/
theorem exec_ps2flush_begin (h : s.pos = .idle ∨ s.pos = .ps2flush .f0) :
    exec .ps2flush s = .next (flush .f0 .ps2flush (fun r s => s.respond r 0) s) := by
  rcases h with h | h
  · simp [exec, execPs2flush, positionFor, entryOf, h]
  · exact exec_ps2flush h

/-- The only way the instruction answers a next state. -/
theorem exec_ps2flush_next (h : exec .ps2flush s = .next t) :
    ∃ l : FlushPc, (s.pos = .ps2flush l ∨ (s.pos = .idle ∧ l = .f0)) ∧
      t = flush l .ps2flush (fun r s => s.respond r 0) s := by
  cases hp : s.pos with
  | ps2flush l =>
    rw [exec_ps2flush hp] at h
    exact ⟨l, .inl rfl, by simpa using h.symm⟩
  | idle =>
    rw [exec_ps2flush_begin (.inl hp)] at h
    exact ⟨.f0, .inr ⟨rfl, rfl⟩, by simpa using h.symm⟩
  | _ => simp [exec, execPs2flush, positionFor, opOf, Position.op, hp] at h

/-- At a label of its own, the instruction runs that action. -/
theorem exec_ps2cmd (cmd : Byte) {l : CmdPc} (h : s.pos = .ps2cmd l) :
    exec (.ps2cmd cmd) s = .next (cmdWrite cmd l .ps2cmd (fun r s => s.respond r 0) s) := by
  simp [exec, execPs2cmd, positionFor, opOf, Position.op, h]

/-- With the sequencer idle, or at its first label, the instruction begins. -/
theorem exec_ps2cmd_begin (cmd : Byte) (h : s.pos = .idle ∨ s.pos = .ps2cmd (.poll .p0)) :
    exec (.ps2cmd cmd) s = .next (cmdWrite cmd (.poll .p0) .ps2cmd (fun r s => s.respond r 0) s) := by
  rcases h with h | h
  · simp [exec, execPs2cmd, positionFor, entryOf, h]
  · exact exec_ps2cmd cmd h

/-- The only way the instruction answers a next state. -/
theorem exec_ps2cmd_next (cmd : Byte) (h : exec (.ps2cmd cmd) s = .next t) :
    ∃ l : CmdPc, (s.pos = .ps2cmd l ∨ (s.pos = .idle ∧ l = (.poll .p0))) ∧
      t = cmdWrite cmd l .ps2cmd (fun r s => s.respond r 0) s := by
  cases hp : s.pos with
  | ps2cmd l =>
    rw [exec_ps2cmd cmd hp] at h
    exact ⟨l, .inl rfl, by simpa using h.symm⟩
  | idle =>
    rw [exec_ps2cmd_begin cmd (.inl hp)] at h
    exact ⟨(.poll .p0), .inr ⟨rfl, rfl⟩, by simpa using h.symm⟩
  | _ => simp [exec, execPs2cmd, positionFor, opOf, Position.op, hp] at h

/-- At a label of its own, the instruction runs that action. -/
theorem exec_ps2init {l : InitPc} (h : s.pos = .ps2init l) :
    exec .ps2init s = .next (ps2Init l .ps2init (fun st v s => s.respond st v) s) := by
  simp [exec, execPs2init, positionFor, opOf, Position.op, h]

/-- With the sequencer idle, or at its first label, the instruction begins. -/
theorem exec_ps2init_begin (h : s.pos = .idle ∨ s.pos = .ps2init .i0) :
    exec .ps2init s = .next (ps2Init .i0 .ps2init (fun st v s => s.respond st v) s) := by
  rcases h with h | h
  · simp [exec, execPs2init, positionFor, entryOf, h]
  · exact exec_ps2init h

/-- The only way the instruction answers a next state. -/
theorem exec_ps2init_next (h : exec .ps2init s = .next t) :
    ∃ l : InitPc, (s.pos = .ps2init l ∨ (s.pos = .idle ∧ l = .i0)) ∧
      t = ps2Init l .ps2init (fun st v s => s.respond st v) s := by
  cases hp : s.pos with
  | ps2init l =>
    rw [exec_ps2init hp] at h
    exact ⟨l, .inl rfl, by simpa using h.symm⟩
  | idle =>
    rw [exec_ps2init_begin (.inl hp)] at h
    exact ⟨.i0, .inr ⟨rfl, rfl⟩, by simpa using h.symm⟩
  | _ => simp [exec, execPs2init, positionFor, opOf, Position.op, hp] at h

/-- At a label of its own, the instruction runs that action. -/
theorem exec_sendcmd (nargs : BitVec 2) (arg1 arg0 opcode : Byte) {l : SendPc} (h : s.pos = .sendcmd l) :
    exec (.sendcmd nargs arg1 arg0 opcode) s = .next (sendCommand (commandBytes nargs arg1 arg0 opcode) false l .sendcmd (fun st v s => s.respond st v) s) := by
  simp [exec, execSendcmd, positionFor, opOf, Position.op, h]

/-- With the sequencer idle, or at its first label, the instruction begins. -/
theorem exec_sendcmd_begin (nargs : BitVec 2) (arg1 arg0 opcode : Byte) (h : s.pos = .idle ∨ s.pos = .sendcmd .s0) :
    exec (.sendcmd nargs arg1 arg0 opcode) s = .next (sendCommand (commandBytes nargs arg1 arg0 opcode) false .s0 .sendcmd (fun st v s => s.respond st v) s) := by
  rcases h with h | h
  · simp [exec, execSendcmd, positionFor, entryOf, h]
  · exact exec_sendcmd nargs arg1 arg0 opcode h

/-- The only way the instruction answers a next state. -/
theorem exec_sendcmd_next (nargs : BitVec 2) (arg1 arg0 opcode : Byte) (h : exec (.sendcmd nargs arg1 arg0 opcode) s = .next t) :
    ∃ l : SendPc, (s.pos = .sendcmd l ∨ (s.pos = .idle ∧ l = .s0)) ∧
      t = sendCommand (commandBytes nargs arg1 arg0 opcode) false l .sendcmd (fun st v s => s.respond st v) s := by
  cases hp : s.pos with
  | sendcmd l =>
    rw [exec_sendcmd nargs arg1 arg0 opcode hp] at h
    exact ⟨l, .inl rfl, by simpa using h.symm⟩
  | idle =>
    rw [exec_sendcmd_begin nargs arg1 arg0 opcode (.inl hp)] at h
    exact ⟨.s0, .inr ⟨rfl, rfl⟩, by simpa using h.symm⟩
  | _ => simp [exec, execSendcmd, positionFor, opOf, Position.op, hp] at h

/-- With the sequencer idle, or at its one label, the instruction runs its one action. -/
theorem exec_scanpop_begin (h : s.pos = .idle ∨ s.pos = .scanpop) :
    exec .scanpop s = .next (scanpopAction s) := by
  rcases h with h | h <;> simp [exec, execScanpop, positionFor, entryOf, opOf, Position.op, h]

/-- The only way the instruction answers a next state. -/
theorem exec_scanpop_next (h : exec .scanpop s = .next t) :
    (s.pos = .scanpop ∨ s.pos = .idle) ∧ t = scanpopAction s := by
  cases hp : s.pos with
  | scanpop =>
    rw [exec_scanpop_begin (.inr hp)] at h
    exact ⟨.inl rfl, by simpa using h.symm⟩
  | idle =>
    rw [exec_scanpop_begin (.inl hp)] at h
    exact ⟨.inr rfl, by simpa using h.symm⟩
  | _ => simp [exec, execScanpop, positionFor, opOf, Position.op, hp] at h

/-- At a label of its own, the instruction runs that action. -/
theorem exec_kbdinit {l : KbdPc} (h : s.pos = .kbdinit l) :
    exec .kbdinit s = .next (kbdinitAction l s) := by
  simp [exec, execKbdinit, positionFor, opOf, Position.op, h]

/-- With the sequencer idle, or at its first label, the instruction begins. -/
theorem exec_kbdinit_begin (h : s.pos = .idle ∨ s.pos = .kbdinit (.init .i0)) :
    exec .kbdinit s = .next (kbdinitAction (.init .i0) s) := by
  rcases h with h | h
  · simp [exec, execKbdinit, positionFor, entryOf, h]
  · exact exec_kbdinit h

/-- The only way the instruction answers a next state. -/
theorem exec_kbdinit_next (h : exec .kbdinit s = .next t) :
    ∃ l : KbdPc, (s.pos = .kbdinit l ∨ (s.pos = .idle ∧ l = (.init .i0))) ∧
      t = kbdinitAction l s := by
  cases hp : s.pos with
  | kbdinit l =>
    rw [exec_kbdinit hp] at h
    exact ⟨l, .inl rfl, by simpa using h.symm⟩
  | idle =>
    rw [exec_kbdinit_begin (.inl hp)] at h
    exact ⟨(.init .i0), .inr ⟨rfl, rfl⟩, by simpa using h.symm⟩
  | _ => simp [exec, execKbdinit, positionFor, opOf, Position.op, hp] at h

/-- The tick event completes at every position. -/
theorem exec_advanceTick : exec .advanceTick s = .next (s.takeEvent s.par.irqTimer advanceTickBody) := rfl

/-- The keyboard event completes at every position. -/
theorem exec_kbdByte : exec .kbdByte s = .next (s.takeEvent s.par.irqKbd kbdByteBody) := rfl

/-- Everything the tick event does. -/
theorem tickEvent_effect : s.takeEvent s.par.irqTimer advanceTickBody =
    { s with tick := (s.tick + 1) % s.modulus, trace := .eoi s.par.irqTimer :: .tick :: s.trace } := rfl

/-- Everything the keyboard event does, field by field. -/
theorem kbdEvent_effect : s.takeEvent s.par.irqKbd kbdByteBody =
    { s with
      envq := s.envq.tail
      draws := if s.envq.isEmpty then s.draws + 1 else s.draws
      ackByte := if s.ackState = .pending then s.envAnswer s.par.portPs2Data else s.ackByte
      ackState := if s.ackState = .pending then ackClass (s.envAnswer s.par.portPs2Data) else s.ackState
      scanq := if s.ackState ≠ .pending ∧ s.queueHasRoom = true then
        s.scanq ++ [s.envAnswer s.par.portPs2Data] else s.scanq
      overrun := if s.ackState ≠ .pending ∧ s.queueHasRoom = false then true else s.overrun
      trace := .eoi s.par.irqKbd :: .kbd (s.envAnswer s.par.portPs2Data) :: s.trace } := by
  have hr : (s.afterAnswer.record (.kbd (s.envAnswer s.par.portPs2Data))).queueHasRoom = s.queueHasRoom := rfl
  by_cases ha : s.ackState = .pending
  · rw [State.takeEvent, kbdByteBody, State.routeByte, if_pos (show (s.afterAnswer.record _).ackState = _ from ha)]
    ext1 <;> simp [ha]
  · rw [State.takeEvent, kbdByteBody, State.routeByte, if_neg (show ¬ (s.afterAnswer.record _).ackState = _ from ha), hr]
    cases hq : s.queueHasRoom <;> ext1 <;> simp [ha]

end Sys2Proof.Machine
end

