-- ==== Sys2Proof/Laws/PerInstr.lean ====
section
/-! SUPPORT. Per instruction: the encoding carries the fixed bits of its row of spec/opcode_table.json. -/

namespace Sys2Proof.Laws.TableMatch

/-- How many low bits of the row are operand bits: every mask of a request row is the bits above them. -/
def freeBits : Instr → Nat
  | .clkinit _ | .deadline _ | .expired _ | .sleep _ => 32
  | .sendcmd _ _ _ _ => 26
  | .ps2wr _ | .ps2cmd _ => 8
  | .gettick | .ps2rd | .ps2flush | .ps2init | .scanpop | .kbdinit => 0
  | .advanceTick | .kbdByte => 0

/-- The row's `match` value. -/
def matchBits : Instr → Nat
  | .clkinit _ => 0x0100000000
  | .gettick => 0x0200000000
  | .deadline _ => 0x1000000000
  | .expired _ => 0x1100000000
  | .sleep _ => 0x1200000000
  | .ps2wr _ => 0x2000000000
  | .ps2rd => 0x2100000000
  | .ps2flush => 0x2200000000
  | .ps2cmd _ => 0x2300000000
  | .ps2init => 0x2400000000
  | .sendcmd _ _ _ _ => 0x3000000000
  | .scanpop => 0x3100000000
  | .kbdinit => 0x4000000000
  | .advanceTick => 0x1
  | .kbdByte => 0x2

/-- The encoding matches the row: the bits above the operand bits, or the event's wire. -/
def Statement (i : Instr) : Prop :=
  match encode i with
  | .request w => w.toNat / 2 ^ freeBits i = matchBits i / 2 ^ freeBits i
  | .event w => w.toNat = matchBits i

theorem clkinit (freq : Word32) : Statement (.clkinit freq) := by
  have := freq.isLt
  simp only [Statement, encode, toNat_requestWord, freeBits, matchBits]; simp; omega

theorem gettick : Statement .gettick := by simp [Statement, encode, toNat_requestWord, freeBits, matchBits]

theorem deadline (ms : Word32) : Statement (.deadline ms) := by
  have := ms.isLt
  simp only [Statement, encode, toNat_requestWord, freeBits, matchBits]; simp; omega

theorem expired (d : Word32) : Statement (.expired d) := by
  have := d.isLt
  simp only [Statement, encode, toNat_requestWord, freeBits, matchBits]; simp; omega

theorem sleep (ms : Word32) : Statement (.sleep ms) := by
  have := ms.isLt
  simp only [Statement, encode, toNat_requestWord, freeBits, matchBits]; simp; omega

theorem ps2wr (byte : Byte) : Statement (.ps2wr byte) := by
  have := byte.isLt
  simp only [Statement, encode, toNat_requestWord, freeBits, matchBits]; simp; omega

theorem ps2rd : Statement .ps2rd := by simp [Statement, encode, toNat_requestWord, freeBits, matchBits]

theorem ps2flush : Statement .ps2flush := by simp [Statement, encode, toNat_requestWord, freeBits, matchBits]

theorem ps2cmd (cmd : Byte) : Statement (.ps2cmd cmd) := by
  have := cmd.isLt
  simp only [Statement, encode, toNat_requestWord, freeBits, matchBits]; simp; omega

theorem ps2init : Statement .ps2init := by simp [Statement, encode, toNat_requestWord, freeBits, matchBits]

theorem sendcmd (nargs : BitVec 2) (arg1 arg0 opcode : Byte) : Statement (.sendcmd nargs arg1 arg0 opcode) := by
  have h := toNat_sendcmdOperand nargs arg1 arg0 opcode
  have h0 := nargs.isLt
  have h1 := arg1.isLt
  have h2 := arg0.isLt
  have h3 := opcode.isLt
  simp only [Statement, encode, toNat_requestWord, freeBits, matchBits, h]; simp; omega

theorem scanpop : Statement .scanpop := by simp [Statement, encode, toNat_requestWord, freeBits, matchBits]

theorem kbdinit : Statement .kbdinit := by simp [Statement, encode, toNat_requestWord, freeBits, matchBits]

theorem advanceTick : Statement .advanceTick := rfl

theorem kbdByte : Statement .kbdByte := rfl

end Sys2Proof.Laws.TableMatch
end

