-- ==== Sys2Proof/Laws/Step.lean ====
section
/-! SUPPORT. Everything a step can do. -/

namespace Sys2Proof.Machine

open Sys2Proof.Safety

variable {s t : State}

/-- The four event words (R72). -/
theorem eventWord_cases (w : EventWord) : w = 0 ∨ w = 1 ∨ w = 2 ∨ w = 3 := by
  revert w; decide

/-- With no event due, the turn is the sequencer's. -/
theorem turn_quiet (h : Quiet s) : s.turn = (sampled s).sequencerTurn := by
  rcases h with h | h
  · simp [State.turn, h, sampled]
    cases s; simp_all
  · cases hi : s.inputs with
    | nil => simp [hi] at h
    | cons x rest =>
      simp only [hi, List.head?_cons, Option.some.injEq] at h
      subst h
      simp [State.turn, hi, State.eventTurn, eventsOf, sampled]

/-- Everything that leads `step` to a next state: the reset input, one event, the idle block waiting, a request
accepted, or an action of the operation in progress. -/
theorem step_next (h : step s = .next t) :
    (∃ rest, s.inputs = .reset :: rest ∧ t = { s with inputs := rest }.resetInput) ∨
    (∃ w rest e inputs' draws', s.inputs = .ev w :: rest ∧
      ((e = .advanceTick ∧ w.getLsbD 0 = true) ∨ (e = .kbdByte ∧ w.getLsbD 1 = true)) ∧
      exec e { s with inputs := inputs', draws := draws' } = .next t) ∨
    (Quiet s ∧ s.pos = .idle ∧ s.hostq = [] ∧ t = sampled s) ∨
    (∃ w rest, Quiet s ∧ s.pos = .idle ∧ s.hostq = w :: rest ∧
      t = { sampled s with hostq := rest }.accept w) ∨
    (∃ i, Quiet s ∧ s.pos ≠ .idle ∧ decodeRequest s.req = .ok i ∧ exec i (sampled s) = .next t) := by
  by_cases hq : Quiet s
  · refine .inr (.inr ?_)
    rw [step, turn_quiet hq, State.sequencerTurn] at h
    have hp : (sampled s).pos = s.pos := rfl
    have hh : (sampled s).hostq = s.hostq := rfl
    have hr : (sampled s).req = s.req := rfl
    by_cases hi : s.pos = .idle
    · rw [hp, if_pos hi, hh] at h
      cases hl : s.hostq with
      | nil => rw [hl] at h; exact .inl ⟨hq, hi, rfl, by simpa using h.symm⟩
      | cons w rest => rw [hl] at h; exact .inr (.inl ⟨w, rest, hq, hi, rfl, (by injection h with h; exact h.symm)⟩)
    · rw [hp, if_neg hi, hr] at h
      cases hd : decodeRequest s.req with
      | ok i => rw [hd] at h; exact .inr (.inr ⟨i, hq, hi, rfl, h⟩)
      | error e => rw [hd] at h; simp at h
  · cases hi : s.inputs with
    | nil => exact absurd (.inl hi) hq
    | cons x rest =>
      cases x with
      | reset => exact .inl ⟨rest, rfl, by simpa [step, State.turn, hi] using h.symm⟩
      | ev w =>
        refine .inr (.inl ?_)
        rcases eventWord_cases w with rfl | rfl | rfl | rfl
        · exact absurd (.inr (by simp [hi])) hq
        · refine ⟨1, rest, .advanceTick, rest, s.draws, rfl, .inl ⟨rfl, rfl⟩, ?_⟩
          simpa [step, State.turn, hi, State.eventTurn, eventsOf] using h
        · refine ⟨2, rest, .kbdByte, rest, s.draws, rfl, .inr ⟨rfl, rfl⟩, ?_⟩
          simpa [step, State.turn, hi, State.eventTurn, eventsOf] using h
        · cases hk : Config.kbdFirst s.draws with
          | true =>
            refine ⟨3, rest, .kbdByte, .ev 1 :: rest, s.draws + 1, rfl, .inr ⟨rfl, rfl⟩, ?_⟩
            simpa [step, State.turn, hi, State.eventTurn, eventsOf, State.bothEvents, hk] using h
          | false =>
            refine ⟨3, rest, .advanceTick, .ev 2 :: rest, s.draws + 1, rfl, .inl ⟨rfl, rfl⟩, ?_⟩
            simpa [step, State.turn, hi, State.eventTurn, eventsOf, State.bothEvents, hk] using h

end Sys2Proof.Machine
end

