-- ==== Sys2Proof/Tests/Slice0.lean ====
section
/-! SUPPORT. Tests with expected values from spec/95_test_vectors.md and spec/30_encoding.md, and one witness per statement. -/

namespace Sys2Proof.Tests

open Sys2Proof Sys2Proof.Machine Sys2Proof.Safety

/-! ### Helpers -/

/-- The next state, if there is one. -/
def after (r : Result) : Option State :=
  match r with
  | .next t => some t
  | .fault _ => none
  | .refused _ => none

/-- Parameter set A after `CLKINIT 100`, at a position and a tick. -/
def at_ (p : Position) (tick : Nat) : State :=
  { State.reset with freq := 100, divisor := 11931, pos := p, tick := tick }

/-- Parameter set B (`W = 8`), as `at_`. -/
def atB (p : Position) (tick : Nat) : State :=
  { at_ p tick with par := { Config.Params.setA with width := 8 } }

/-! ### Ill-formed terms (R75, R76, R82) -/

theorem test_wellFormed_refuses_ps2cmd_outside_set : ¬ (Instr.ps2cmd 0x20).WellFormed := by decide

theorem test_wellFormed_refuses_ps2cmd_next_to_set : ¬ (Instr.ps2cmd 0xAC).WellFormed := by decide

theorem test_wellFormed_refuses_three_args : ¬ (Instr.sendcmd 3 0 0 0xF4).WellFormed := by decide

/-! ### Decoding, words written out from R73 to R75 -/

theorem test_decode_clkinit : decode (.request 0x01001E8480) = .ok (.clkinit 2000000) := by decide
theorem test_decode_gettick : decode (.request 0x0200000000) = .ok .gettick := by decide
theorem test_decode_deadline : decode (.request 0x1000000064) = .ok (.deadline 100) := by decide
theorem test_decode_expired : decode (.request 0x110000002A) = .ok (.expired 42) := by decide
theorem test_decode_sleep : decode (.request 0x120000001E) = .ok (.sleep 30) := by decide
theorem test_decode_ps2wr : decode (.request 0x20000000F4) = .ok (.ps2wr 0xF4) := by decide
theorem test_decode_ps2rd : decode (.request 0x2100000000) = .ok .ps2rd := by decide
theorem test_decode_ps2flush : decode (.request 0x2200000000) = .ok .ps2flush := by decide
theorem test_decode_ps2cmd : decode (.request 0x23000000AE) = .ok (.ps2cmd 0xAE) := by decide
theorem test_decode_ps2init : decode (.request 0x2400000000) = .ok .ps2init := by decide
theorem test_decode_sendcmd : decode (.request 0x3002332211) = .ok (.sendcmd 2 0x33 0x22 0x11) := by decide
theorem test_decode_sendcmd_ignored_arg : decode (.request 0x300000AAF4) = .ok (.sendcmd 0 0 0xAA 0xF4) := by decide
theorem test_decode_scanpop : decode (.request 0x3100000000) = .ok .scanpop := by decide
theorem test_decode_kbdinit : decode (.request 0x4000000000) = .ok .kbdinit := by decide
theorem test_decode_advanceTick : decode (.event 1) = .ok .advanceTick := by decide
theorem test_decode_kbdByte : decode (.event 2) = .ok .kbdByte := by decide

/-! ### Words that are no instruction (R72, R76; spec/95 sections 2.1, 2.5, 2.7) -/

theorem test_reject_unknownOp : decode (.request 0x4100000000) = .error .unknownOp := by decide
theorem test_reject_reservedBit : decode (.request 0x0200000001) = .error .reservedBit := by decide
theorem test_reject_ps2wr_bit8 : decode (.request 0x2000000100) = .error .reservedBit := by decide
theorem test_reject_bit27 : decode (.request 0x30080000F4) = .error .reservedBit := by decide
theorem test_reject_secondDevice : decode (.request 0x30040000F4) = .error .secondDevice := by decide
theorem test_reject_tooManyArgs : decode (.request 0x3003000000) = .error .tooManyArgs := by decide
theorem test_reject_notControllerCommand : decode (.request 0x2300000020) = .error .notControllerCommand := by decide
theorem test_reject_noEvent : decode (.event 0) = .error .noEvent := by decide
theorem test_reject_twoEvents : decode (.event 3) = .error .twoEvents := by decide

/-! ### The host's two questions, from reset -/

theorem test_tableWord_kbdByte : decodeTableWord 8 2 = some .kbdByte := by decide
theorem test_tableWord_gettick : decodeTableWord 40 0x0200000000 = some .gettick := by decide
theorem test_fetch_runs_request : step (State.reset.withFetchWord 40 0x4000000000) =
    exec .kbdinit { State.reset with
      req := 0x4000000000, pos := .kbdinit (.init .i0), trace := [.req 0x4000000000] } := rfl
theorem test_fetch_runs_event :
    (after (step (State.reset.withFetchWord 8 1))).map (·.tick) = some 1 := by decide
theorem test_fetch_answers_illegal :
    (after (step (State.reset.withFetchWord 40 0xFF12345678))).map (·.rsp) = some 0x0F12345678 := by decide

/-! ### One action at a time -/

/-- spec/95 section 2.1, 19 Hz: quotient 62799, the first frequency not clamped. -/
theorem test_clkinit_divisor : (after (exec (.clkinit 19) (at_ .idle 77))).map
    (fun t => (t.freq, t.divisor, t.pos, t.trace)) =
    some (19, 0xF54F, .clkinit .c2, [.ioW 0x43 0x34]) := by decide
/-- spec/95 section 2.1: 2000000 Hz is clamped to `OSC_HZ`, divisor 1; the last action of a clamped divisor. -/
theorem test_clkinit_last_action :
    (after (exec (.clkinit 1) { at_ (.clkinit .c4) 77 with divisor := 65536 })).map
    (fun t => (t.tick, t.rsp, t.pos)) = some (0, 0x0000010000, .idle) := by decide
/-- spec/95 section 2.1. -/
theorem test_gettick : (after (exec .gettick (at_ .gettick 0x12345678))).map (·.rsp) = some 0x0012345678 := by decide
/-- spec/95 P1 step 3: across the wrap of an 8-bit counter. -/
theorem test_deadline_wraps : (after (exec (.deadline 100) (atB .deadline 0xFA))).map (·.rsp) =
    some 0x0000000004 := by decide
/-- spec/95 P1 step 5: not yet expired. -/
theorem test_expired_no : (after (exec (.expired 4) (atB .expired 3))).map (·.rsp) = some 0x0000000000 := by decide
/-- spec/95 P1 step 6: expired; the operand bits above `W` are ignored (R103). -/
theorem test_expired_yes : (after (exec (.expired 0xFFFFFF04) (atB .expired 4))).map (·.rsp) =
    some 0x0000000001 := by decide
/-- spec/95 P1 step 7. -/
theorem test_sleep_deadline : (after (exec (.sleep 30) (atB .idle 4))).map (fun t => (t.dl, t.pos)) =
    some (7, .sleep .s1) := by decide
theorem test_sleep_ends : (after (exec (.sleep 30) { atB (.sleep .s1) 7 with dl := 7 })).map
    (fun t => (t.pos, t.rsp)) = some (.idle, 0) := by decide
/-- spec/95 P2a: bit 1 set, not ready. -/
theorem test_ps2wr_busy : (after (exec (.ps2wr 0xF4)
    { at_ (.ps2wr (.poll .p1)) 5 with dl := 7, envq := [0x02] })).map
    (fun t => (t.pos, t.sreg, t.trace)) = some (.ps2wr (.poll .p2), 0x02, [.ioR 0x64 0x02]) := by decide
/-- spec/95 P2a: the write leaves the slot `Idle`, and `CUR` as stored (R116). -/
theorem test_ps2wr_writes : (after (exec (.ps2wr 0xF4) { at_ (.ps2wr .w1) 6 with dl := 7 })).map
    (fun t => (t.rsp, t.ackState, t.dl, t.cur, t.trace)) =
    some (0, .idle, 7, 0, [.rsp .ok 0, .ioW 0x60 0xF4]) := by decide
/-- R28: at `[w1]` of the second byte of `SENDCMD`, and at the `[k1]` of `0xAB`, `CUR` is the byte being written. -/
theorem test_curByte_written :
    ({ at_ (.sendcmd (.write .w1)) 0 with req := 0x3002332211, idx := 1, cur := 0x9C } : State).curByte = 0x22 ∧
      ({ at_ (.ps2init (.portCmd .k1)) 0 with cur := 0x55 } : State).curByte = 0xAB := by decide
theorem test_ps2rd_reads : (after (exec .ps2rd { at_ (.ps2rd .r1) 0 with envq := [0x9C] })).map
    (fun t => (t.rsp, t.cur, t.trace)) =
    some (0x000000009C, 0x9C, [.rsp .ok 0x9C, .ioR 0x60 0x9C]) := by decide
/-- spec/95 section 2.4: a stuck buffer ends the flush at `TICK = DL`. -/
theorem test_ps2flush_timeout : (after (exec .ps2flush { at_ (.ps2flush .f2) 7 with dl := 7 })).map (·.rsp) =
    some 0x0100000000 := by decide
theorem test_ps2cmd_writes : (after (exec (.ps2cmd 0xAD) (at_ (.ps2cmd .k1) 0))).map
    (fun t => (t.rsp, t.ctrlState, t.trace)) =
    some (0, .uninit, [.rsp .ok 0, .ioW 0x64 0xAD]) := by decide
/-- spec/95 section 2.4, second row of the `PS2INIT` table. -/
theorem test_ps2init_selfTest_fails : (after (exec .ps2init
    { at_ (.ps2init (.selfRead .r1)) 0 with ctrlState := .selfTestPending, envq := [0xFC] })).map
    (fun t => (t.rsp, t.ctrlState)) = some (0x03000000FC, .selfTestFailed) := by decide
/-- spec/95 section 2.4, fourth row. -/
theorem test_ps2init_portTest_fails : (after (exec .ps2init
    { at_ (.ps2init (.portRead .r1)) 0 with ctrlState := .portTestPending, envq := [0x01] })).map
    (fun t => (t.rsp, t.ctrlState)) = some (0x0300000101, .portFailed) := by decide
/-- spec/95 P3: the write arms the slot, `DL <- 10 + 5`. -/
theorem test_sendcmd_arms : (after (exec (.sendcmd 0 0 0 0xF4) (at_ (.sendcmd (.write .w1)) 10))).map
    (fun t => (t.ackState, t.dl, t.pos, t.trace)) =
    some (.pending, 15, .sendcmd .s1, [.ioW 0x60 0xF4]) := by decide
/-- spec/95 X4: the fourth RESEND. -/
theorem test_sendcmd_exhausted : (after (exec (.sendcmd 1 0 0x22 0x11)
    { at_ (.sendcmd .s1) 0 with idx := 1, ackState := .resend, retries := 3 })).map
    (fun t => (t.rsp, t.unresp, t.latchStatus, t.latchValue)) =
    some (0x040000FE11, true, .deviceUnresponsive, 0xFE11) := by decide
/-- spec/95 X6. -/
theorem test_scanpop_oldest : (after (exec .scanpop { at_ .scanpop 0 with scanq := [0xFA, 0xFE] })).map
    (fun t => (t.rsp, t.scanq)) = some (0x00000000FA, [0xFE]) := by decide
theorem test_scanpop_empty : (after (exec .scanpop (at_ .scanpop 0))).map (·.rsp) = some 0x0500000000 := by decide
/-- spec/95 P6: `0xAA` classified as a desync still counts (R161). -/
theorem test_kbdinit_bat : (after (exec .kbdinit
    { at_ (.kbdinit .b1) 3 with ackState := .desync, ackByte := 0xAA })).map (fun t => (t.pos, t.ackState)) =
    some (.kbdinit (.enable .s0), .idle) := by decide
/-- spec/95 P6: the acknowledged `0xFF` arms the slot again for `T_BAT_MS`. -/
theorem test_kbdinit_rearms : (after (exec .kbdinit
    { at_ (.kbdinit (.reset .s1)) 0 with ackState := .acked, ackByte := 0xFA })).map
    (fun t => (t.pos, t.ackState, t.dl)) = some (.kbdinit .b1, .pending, 100) := by decide
/-- spec/95 section 2.1: the wrap, and the end-of-interrupt signal. -/
theorem test_advanceTick_wraps : (after (exec .advanceTick (atB (.sleep .s1) 0xFF))).map
    (fun t => (t.tick, t.pos, t.trace)) = some (0, .sleep .s1, [.eoi 0, .tick]) := by decide
/-- spec/95 section 2.5: `0xAA` while pending is a desync. -/
theorem test_kbdByte_pending : (after (exec .kbdByte
    { at_ (.sendcmd .s1) 0 with ackState := .pending, envq := [0xAA] })).map
    (fun t => (t.ackState, t.ackByte, t.scanq, t.trace)) =
    some (.desync, 0xAA, [], [.eoi 1, .kbd 0xAA]) := by decide
/-- spec/95 section 2.5: a full queue. -/
theorem test_kbdByte_overrun : (after (exec .kbdByte
    { at_ .idle 0 with
      scanq := [1, 2], envq := [3], par := { Config.Params.setA with scanqCap := some 2 } })).map
    (fun t => (t.scanq, t.overrun)) = some ([1, 2], true) := by decide

/-! ### Witnesses: a concrete state and operands that meet the hypotheses of each statement that has any -/

/-- The idle block of `at_`, with answers lined up. -/
def answers (bs : List Byte) : State := { at_ .idle 10 with envq := bs }

/-- The three commands: `SENDCMD`'s, and `KBDINIT`'s `0xFF` and `0xF4`. -/
theorem witness_sends :
    Sends (.sendcmd 2 0x33 0x22 0x11) [0x11, 0x22, 0x33] .sendcmd ∧
      Sends .kbdinit [0xFF] (fun l => .kbdinit (.reset l)) ∧ Sends .kbdinit [0xF4] (fun l => .kbdinit (.enable l)) :=
  ⟨.inl ⟨2, 0x33, 0x22, 0x11, rfl, rfl, rfl⟩, .inr (.inl ⟨rfl, rfl, rfl⟩), .inr (.inr ⟨rfl, rfl, rfl⟩)⟩

theorem witness_bringsUp : BringsUp .ps2init .ps2init ∧ BringsUp .kbdinit (fun l => .kbdinit (.init l)) :=
  ⟨.inl ⟨rfl, rfl⟩, .inr ⟨rfl, rfl⟩⟩

/-- The bring-up at `[i1]`, under its request. -/
def bringup : State := { at_ (.ps2init .i1) 5 with req := 0x2400000000 }

/-- The invariant holds of a state inside the bring-up. -/
theorem witness_invariant : Inv bringup where
  params := by decide
  tick := by decide
  dl := by decide
  clock := .inr (by decide)
  queue := by intro cap h; simp [bringup, at_, State.reset, State.resetOf, Config.Params.setA] at h
  overrun := by intro h; simp [bringup, at_, State.reset, State.resetOf] at h
  latch := by intro h; simp [bringup, at_, State.reset, State.resetOf] at h
  slot := rfl
  ctrl := rfl
  usable := rfl
  request := fun _ => ⟨.ps2init, rfl, rfl⟩
  command := by intro l h; simp [bringup, at_, sendLabel] at h

/-- `KBDINIT` about to write `0xF4`, under its request. -/
def enabling : State :=
  { at_ (.kbdinit (.enable (.write .w1))) 5 with req := 0x4000000000, ctrlState := .deviceEnabled }

/-- `SENDCMD` about to write its second byte, under its request. -/
def sending : State := { at_ (.sendcmd (.write .w1)) 5 with req := 0x3002332211, idx := 1 }

theorem witness_invariant_enabling : Inv enabling where
  params := by decide
  tick := by decide
  dl := by decide
  clock := .inr (by decide)
  queue := by intro cap h; simp [enabling, at_, State.reset, State.resetOf, Config.Params.setA] at h
  overrun := by intro h; simp [enabling, at_, State.reset, State.resetOf] at h
  latch := by intro h; simp [enabling, at_, State.reset, State.resetOf] at h
  slot := rfl
  ctrl := rfl
  usable := rfl
  request := fun _ => ⟨.kbdinit, rfl, rfl⟩
  command := fun _ _ _ => by decide

theorem witness_invariant_sending : Inv sending where
  params := by decide
  tick := by decide
  dl := by decide
  clock := .inr (by decide)
  queue := by intro cap h; simp [sending, at_, State.reset, State.resetOf, Config.Params.setA] at h
  overrun := by intro h; simp [sending, at_, State.reset, State.resetOf] at h
  latch := by intro h; simp [sending, at_, State.reset, State.resetOf] at h
  slot := rfl
  ctrl := trivial
  usable := rfl
  request := fun _ => ⟨.sendcmd 2 0x33 0x22 0x11, rfl, rfl⟩
  command := fun _ _ _ => by decide

/-- `KBDINIT` about to discard a stale byte, under its request. -/
def draining : State := { at_ (.kbdinit (.init (.flush .f3))) 5 with req := 0x4000000000, envq := [0x3A] }

theorem witness_invariant_draining : Inv draining where
  params := by decide
  tick := by decide
  dl := by decide
  clock := .inr (by decide)
  queue := by intro cap h; simp [draining, at_, State.reset, State.resetOf, Config.Params.setA] at h
  overrun := by intro h; simp [draining, at_, State.reset, State.resetOf] at h
  latch := by intro h; simp [draining, at_, State.reset, State.resetOf] at h
  slot := rfl
  ctrl := rfl
  usable := rfl
  request := fun _ => ⟨.kbdinit, rfl, rfl⟩
  command := by intro l h; simp [draining, at_, sendLabel] at h

theorem witness_DecodeOfEncode :
    (Instr.ps2cmd 0xAD).WellFormed ∧ (Instr.sendcmd 2 0xFF 0xFF 0xFF).WellFormed := by decide

theorem witness_LegalWordsAreEncodings :
    decode (.request 0x3002FFFFFF) = .ok (.sendcmd 2 0xFF 0xFF 0xFF) ∧ decode (.event 2) = .ok .kbdByte := by decide

/-- One illegal word for each case of R76, at the edges of the ranges, presented to the idle block. -/
theorem witness_IllegalRequestAnswered :
    (∀ w ∈ [0x0000000000#40, 0x4100000000#40, 0x0280000000#40, 0x2000000100#40, 0x3008000000#40,
        0x3004000000#40, 0x3003000000#40, 0x23000000AC#40], IllegalRequest w) ∧
      (at_ .idle 0).pos = .idle ∧ Quiet (at_ .idle 0) ∧
      ({ at_ .idle 0 with hostq := [0x4100000000] } : State).hostq = 0x4100000000 :: [] := by
  refine ⟨?_, rfl, by decide, rfl⟩
  simp [IllegalRequest, opNumber, operandNumber]

theorem witness_StepRunsDecodedRequest :
    bringup.pos ≠ .idle ∧ Quiet bringup ∧ Quiet { bringup with inputs := [.ev 0] } ∧
      decode (.request bringup.req) = .ok .ps2init := by decide

theorem witness_StepRunsDecodedEvent :
    ({ bringup with inputs := [.ev 2] } : State).inputs = .ev 2 :: [] ∧ decode (.event 2) = .ok .kbdByte := by decide

theorem witness_LegalRequestAccepted :
    (at_ .idle 0).pos = .idle ∧ Quiet (at_ .idle 0) ∧ (at_ .idle 0).hostq = [] ∧
      ({ at_ .idle 0 with hostq := [0x23000000AD] } : State).hostq = 0x23000000AD :: [] ∧
      ¬ IllegalRequest 0x23000000AD := by unfold IllegalRequest; decide

theorem witness_BusyBlockAcceptsNoRequest : bringup.pos ≠ .idle ∧ ∃ t, step bringup = .next t :=
  ⟨by decide, _, rfl⟩

theorem witness_SimultaneousEventsBothOccur :
    ({ bringup with inputs := [.ev 3] } : State).inputs = .ev 3 :: [] := rfl

theorem witness_ResetInputRestoresRegisters :
    ({ bringup with inputs := [.reset] } : State).inputs = .reset :: [] := rfl

theorem witness_GettickAnswersTick :
    Ready .gettick (at_ .idle (2 ^ 32 - 1)) ∧ Ready .gettick (at_ .gettick 0) ∧
      (at_ .idle (2 ^ 32 - 1)).tick < 2 ^ 32 := by decide

theorem witness_ClkinitProgramsTimer :
    Ready (.clkinit 0) (at_ .idle 77) ∧ Ready (.clkinit 0) (at_ (.clkinit .c1) 0) ∧ (at_ .idle 77).par.Ok ∧
      ∃ t, Runs (List.replicate 4 (.clkinit 0)) (at_ .idle 77) t :=
  ⟨by decide, by decide, by decide, _, _, rfl, _, rfl, _, rfl, _, rfl, rfl⟩

/-- A tick, the end of `CLKINIT`, a reset, and a step that leaves `TICK`. -/
theorem witness_TickHasTwoWriters :
    (∃ t, step { bringup with inputs := [.ev 1] } = .next t) ∧
      (∃ t, step { at_ (.clkinit .c4) 77 with req := 0x0100000064 } = .next t) ∧
      (∃ t, step { bringup with inputs := [.reset] } = .next t) ∧ ∃ t, step bringup = .next t :=
  ⟨⟨_, rfl⟩, ⟨_, rfl⟩, ⟨_, rfl⟩, ⟨_, rfl⟩⟩

theorem witness_TicksAdvanceModulo : (atB .idle 255).tick < 2 ^ (atB .idle 255).par.width := by decide

theorem witness_DeltaIsLeastTickCount :
    ((11 : Word32).toNat * (at_ .idle 0).freq.toNat + 999) / 1000 < 2 ^ (at_ .idle 0).par.width ∧
      ((2550 : Word32).toNat * (atB .idle 0).freq.toNat + 999) / 1000 < 2 ^ (atB .idle 0).par.width ∧
      State.reset.freq = 0 := by decide

theorem witness_DeadlineAnswersTickPlusDelta :
    Ready (.deadline 100) (atB .idle 0xFA) ∧ Ready (.deadline 0) (at_ .deadline 0) := by decide

theorem witness_ExpiredAnswersComparator :
    Ready (.expired 0x100) (atB .idle 0) ∧ Ready (.expired 0) (at_ .expired 0) := by decide

/-- The clauses at their edges on an 8-bit counter: `k = 128` with `j` = 127, 128, 255, 256, 383, and `k = 129` with
`j = 0`; the state's tick is `(250 + j) mod 256`. -/
theorem witness_ComparatorWindow :
    (atB .idle 0).par.Ok ∧
      (∀ j ∈ [127, 128, 255, 256, 383], (atB .idle ((250 + j) % 256)).tick = (250 + j) % 2 ^ (atB .idle 0).par.width) ∧
      128 < 2 ^ (atB .idle 0).par.width ∧ 129 < 2 ^ (atB .idle 0).par.width ∧
      128 ≤ 2 ^ ((atB .idle 0).par.width - 1) ∧ 127 < 128 ∧ 255 < 128 + 2 ^ ((atB .idle 0).par.width - 1) ∧
      128 + 2 ^ ((atB .idle 0).par.width - 1) ≤ 256 ∧ 383 < 128 + 2 ^ (atB .idle 0).par.width ∧
      2 ^ ((atB .idle 0).par.width - 1) < 129 := by decide

theorem witness_ZeroDeadlineExpiresAtOnce :
    (atB .idle 255).par.Ok ∧ (atB .idle 255).tick < 2 ^ (atB .idle 255).par.width ∧
      Ready (.deadline 0) (atB .idle 255) ∧ 127 < 2 ^ ((atB .idle 255).par.width - 1) := by decide

theorem witness_SleepWaitsForDeadline :
    Ready (.sleep 30) (atB .idle 4) ∧
      (atB (.sleep .s1) 7).pos = .sleep .s1 ∧
      ({ atB (.sleep .s1) 7 with dl := 7 } : State).expired 7 = true ∧
      ({ atB (.sleep .s1) 6 with dl := 7 } : State).expired 7 = false ∧
      Ready (.sleep 0) (atB .idle 255) ∧ (atB .idle 255).par.Ok ∧
      (atB .idle 255).tick < 2 ^ (atB .idle 255).par.width ∧ State.reset.freq = 0 ∧
      Ready (.sleep 500) State.reset ∧ 127 < 2 ^ ((atB .idle 255).par.width - 1) ∧
      (atB .idle 255).delta 1290 = 129 ∧ 2 ^ ((atB .idle 255).par.width - 1) < (atB .idle 255).delta 1290 := by decide

theorem witness_SleepEndsNoEarlier :
    Ready (.sleep 30) (atB .idle 254) ∧ (atB .idle 254).par.Ok ∧
      (atB .idle 254).tick < 2 ^ (atB .idle 254).par.width ∧
      (atB .idle 254).delta 30 = 3 ∧ (atB .idle 254).delta 30 ≤ 2 ^ ((atB .idle 254).par.width - 1) ∧
      2 < (atB .idle 254).delta 30 + 2 ^ ((atB .idle 254).par.width - 1) ∧
      130 < (atB .idle 254).delta 30 + 2 ^ ((atB .idle 254).par.width - 1) := by decide

theorem witness_Ps2wrSendsByte :
    Ready (.ps2wr 0xF4) (answers [0x01]) ∧ (answers [0x01]).envq = 0x01 :: [] ∧
      (0x01 : Byte).getLsbD 1 = false := by decide

theorem witness_Ps2rdReadsByte :
    Ready .ps2rd (answers [0xFD, 0x1C]) ∧ (answers [0xFD, 0x1C]).envq = 0xFD :: 0x1C :: [] ∧
      (0xFD : Byte).getLsbD 0 = true := by decide

theorem witness_Ps2cmdWritesCommand :
    Ready (.ps2cmd 0xAE) (answers [0x00]) ∧ (answers [0x00]).envq = 0x00 :: [] ∧
      (0x00 : Byte).getLsbD 1 = false := by decide

/-- `delta(T_POLL_MS)` is 2: one tick, between the actions of two busy reads. -/
theorem witness_PollReadsUntilReady :
    (answers []).par.Ok ∧ (answers []).tick < 2 ^ (answers []).par.width ∧
      (answers [0x02, 0x03, 0x01]).envq = [0x02, 0x03] ++ 0x01 :: [] ∧
      (answers []).delta (answers []).par.tPollMs ≤ 2 ^ ((answers []).par.width - 1) ∧
      ([.ps2rd, .ps2rd, .advanceTick, .ps2rd, .ps2rd, .ps2rd, .ps2rd] : List Instr).count .advanceTick <
        (answers []).delta (answers []).par.tPollMs ∧
      Ticked .ps2rd (2 * [0x02#8, 0x03#8].length + 2)
        [.ps2rd, .ps2rd, .advanceTick, .ps2rd, .ps2rd, .ps2rd, .ps2rd] ∧
      Ticked (.ps2wr 0xF4) (2 * [0x02#8, 0x03#8].length + 2) (.advanceTick :: List.replicate 6 (.ps2wr 0xF4)) ∧
      Ticked (.ps2cmd 0xAE) (2 * [0x02#8, 0x03#8].length + 2) (List.replicate 6 (.ps2cmd 0xAE) ++ [.advanceTick]) ∧
      Ready (.ps2wr 0xF4) (answers []) ∧ Ready .ps2rd (answers []) ∧ Ready (.ps2cmd 0xAE) (answers []) ∧
      (∀ b ∈ [0x02#8, 0x03#8], b.getLsbD 1 = true) ∧ (0x01 : Byte).getLsbD 1 = false ∧
      (∀ b ∈ [0x02#8, 0xFE#8], b.getLsbD 0 = false) ∧ (0x01 : Byte).getLsbD 0 = true := by
  unfold Ticked; decide

theorem witness_EngineTimeoutAnswers :
    ({ at_ (.ps2wr (.poll .p2)) 7 with dl := 7 } : State).expired 7 = true ∧
      (at_ (.ps2rd (.poll .p2)) 7).pos = .ps2rd (.poll .p2) ∧
      (at_ (.ps2cmd (.poll .p2)) 7).pos = .ps2cmd (.poll .p2) ∧ (at_ (.ps2flush .f2) 7).pos = .ps2flush .f2 ∧
      BringsUp .ps2init .ps2init ∧ BringsUp .kbdinit (fun l => .kbdinit (.init l)) ∧
      ∀ l ∈ [InitPc.flush .f2, .selfCmd (.poll .p2), .selfRead (.poll .p2), .portCmd (.poll .p2),
          .portRead (.poll .p2), .enable (.poll .p2)],
        ({ at_ (.ps2init l) 7 with dl := 7 } : State).expired 7 = true ∧
          ({ at_ (.kbdinit (.init l)) 7 with dl := 7 } : State).expired 7 = true :=
  ⟨by decide, rfl, rfl, rfl, witness_bringsUp.1, witness_bringsUp.2, by decide⟩

theorem witness_UnconfiguredWaitTimesOut :
    State.reset.par.Ok ∧ State.reset.tick < 2 ^ State.reset.par.width ∧ State.reset.freq = 0 ∧
      ({ State.reset with envq := [0x02] } : State).envq = 0x02 :: [] ∧
      Ready (.ps2wr 0) State.reset ∧ Ready .ps2rd State.reset ∧ Ready (.ps2cmd 0xAE) State.reset ∧
      Ready .ps2flush State.reset ∧
      (0x02 : Byte).getLsbD 1 = true ∧ (0x02 : Byte).getLsbD 0 = false ∧ (0x01 : Byte).getLsbD 0 = true ∧
      BringsUp .ps2init .ps2init ∧ Sends .kbdinit [0xF4] (fun l => .kbdinit (.enable l)) ∧
      ∀ p ∈ [Position.ps2init (.flush .f0), .ps2init (.selfCmd (.poll .p0)), .ps2init (.selfRead (.poll .p0)),
          .ps2init (.portCmd (.poll .p0)), .ps2init (.portRead (.poll .p0)), .ps2init (.enable (.poll .p0)),
          .kbdinit (.enable (.write (.poll .p0))), .kbdinit (.enable (.flush .f0)), .kbdinit (.flush .f0)],
        ({ State.reset with pos := p } : State).freq = 0 ∧
          ({ State.reset with pos := p } : State).tick < 2 ^ ({ State.reset with pos := p } : State).par.width :=
  ⟨by decide, by decide, rfl, rfl, by decide, by decide, by decide, by decide, by decide, by decide, by decide,
    witness_bringsUp.1, witness_sends.2.2, by decide⟩

/-- `delta(T_FLUSH_MS)` is 2: one tick, between the two reads of a stale byte. -/
theorem witness_FlushDrainsStaleBytes :
    (answers []).par.Ok ∧ (answers []).tick < 2 ^ (answers []).par.width ∧ Ready .ps2flush (answers []) ∧
      (∀ p ∈ [(0x01#8, 0x1C#8), (0xFF#8, 0x9C#8)], p.1.getLsbD 0 = true) ∧ (0xFE : Byte).getLsbD 0 = false ∧
      (answers [0x01, 0x1C, 0xFF, 0x9C, 0xFE]).envq =
        [(0x01#8, 0x1C#8), (0xFF#8, 0x9C#8)].flatMap (fun p => [p.1, p.2]) ++ 0xFE :: [] ∧
      (answers []).delta (answers []).par.tFlushMs ≤ 2 ^ ((answers []).par.width - 1) ∧
      (List.replicate 3 .ps2flush ++ [.advanceTick] ++ List.replicate 5 .ps2flush : List Instr).count .advanceTick <
        (answers []).delta (answers []).par.tFlushMs ∧
      Ticked .ps2flush (3 * [(0x01#8, 0x1C#8), (0xFF#8, 0x9C#8)].length + 2)
        (List.replicate 3 .ps2flush ++ [.advanceTick] ++ List.replicate 5 .ps2flush) := by
  refine ⟨by decide, by decide, by decide, by simp, by decide, by decide, by decide, by decide, ?_⟩
  unfold Ticked; decide

theorem witness_Ps2initBringsUpController :
    Ready .ps2init (answers [0x00, 0x01, 0x01, 0x55, 0xFD, 0x01, 0x00, 0x00]) ∧
      (answers [0x00, 0x01, 0x01, 0x55, 0xFD, 0x01, 0x00, 0x00]).envq =
        0x00 :: 0x01 :: 0x01 :: 0x55 :: 0xFD :: 0x01 :: 0x00 :: 0x00 :: [] ∧
      (0x00 : Byte).getLsbD 0 = false ∧ (0x01 : Byte).getLsbD 1 = false ∧ (0xFD : Byte).getLsbD 1 = false ∧
      (0x00 : Byte).getLsbD 1 = false ∧ (0x01 : Byte).getLsbD 0 = true := by decide

theorem witness_ControllerTestFailureFaults :
    (answers [0x54]).envq = 0x54 :: [] ∧ (0x54 : Byte) ≠ 0x55 ∧ (0x01 : Byte) ≠ 0x00 ∧
      (at_ (.ps2init (.selfRead .r1)) 0).pos = .ps2init (.selfRead .r1) ∧
      (at_ (.kbdinit (.init (.selfRead .r1))) 0).pos = .kbdinit (.init (.selfRead .r1)) ∧
      (at_ (.ps2init (.portRead .r1)) 0).pos = .ps2init (.portRead .r1) ∧
      (at_ (.kbdinit (.init (.portRead .r1))) 0).pos = .kbdinit (.init (.portRead .r1)) := by decide

theorem witness_ControllerStateTransitions :
    (∃ t, exec .ps2init bringup = .next t) ∧ bringup.pos ≠ .idle ∧ opOf .ps2init = bringup.pos.op :=
  ⟨⟨_, rfl⟩, by decide⟩

theorem witness_ControllerStateFollowsArrows : Inv bringup ∧ ∃ t, step bringup = .next t :=
  ⟨witness_invariant, _, rfl⟩

theorem witness_KbdByteRoutesByte :
    (answers [0xFA]).envq = 0xFA :: [] ∧
      ({ answers [0xFA] with ackState := .pending } : State).ackState = .pending ∧
      (answers [0xFA]).ackState ≠ .pending ∧
      (∀ cap ∈ some 2, ({ answers [0xFA] with scanq := [1] } : State).scanq.length < cap) ∧
      2 ≤ ({ answers [0xFA] with scanq := [1, 2] } : State).scanq.length := by
  refine ⟨rfl, rfl, by decide, ?_, by decide⟩
  intro cap h
  cases h
  decide

/-- An action that reads a port, and one that reads none. -/
theorem witness_UnansweredReadTakesFreeByte :
    (answers []).envq = [] ∧ (at_ (.ps2rd .r1) 0).envq = [] ∧ (at_ .gettick 0).envq = [] ∧
      (∃ t, exec .ps2rd (at_ (.ps2rd .r1) 0) = .next t ∧ t.draws = 1) ∧
      ∃ t, exec .gettick (at_ .gettick 0) = .next t ∧ t.draws = 0 :=
  ⟨rfl, rfl, rfl, ⟨_, rfl, rfl⟩, ⟨_, rfl, rfl⟩⟩

theorem witness_ScanpopTakesOldestByte :
    Ready .scanpop (at_ .scanpop 0) ∧ Ready .scanpop (at_ .idle 0) ∧ (at_ .idle 0).scanq = [] ∧
      ({ at_ .idle 0 with scanq := [0xFE] } : State).scanq = 0xFE :: [] := by decide

/-- A byte queued, a byte taken, a reset, a byte dropped. -/
theorem witness_QueueIsFirstInFirstOut :
    (∃ t, step { answers [7] with inputs := [.ev 2] } = .next t) ∧
      (∃ t, step { at_ .scanpop 0 with req := 0x3100000000, scanq := [1, 2] } = .next t) ∧
      (∃ t, step { at_ .scanpop 0 with scanq := [1, 2], overrun := true, inputs := [.reset] } = .next t ∧
        t.overrun = false) ∧
      ∃ t, step { answers [7] with inputs := [.ev 2], par := { Config.Params.setA with scanqCap := some 0 } } =
        .next t ∧ t.overrun = true :=
  ⟨⟨_, rfl⟩, ⟨_, rfl⟩, ⟨_, rfl, rfl⟩, ⟨_, rfl, rfl⟩⟩

theorem witness_WriteArmsSlot :
    Sends (.sendcmd 2 0x33 0x22 0x11) [0x11, 0x22, 0x33] .sendcmd ∧
      (at_ (.sendcmd (.write .w1)) 0).pos = .sendcmd (.write .w1) ∧
      [0x11#8, 0x22#8, 0x33#8][0]? = some 0x11 ∧ [0x11#8, 0x22#8, 0x33#8][2]? = some 0x33 ∧
      Sends .kbdinit [0xFF] (fun l => .kbdinit (.reset l)) ∧
      (at_ (.kbdinit (.reset (.write .w1))) 0).pos = .kbdinit (.reset (.write .w1)) ∧ [0xFF#8][0]? = some 0xFF ∧
      Sends .kbdinit [0xF4] (fun l => .kbdinit (.enable l)) ∧ [0xF4#8][0]? = some 0xF4 :=
  ⟨witness_sends.1, rfl, rfl, rfl, witness_sends.2.1, rfl, rfl, witness_sends.2.2, rfl⟩

/-- Each clause, at the ends of the ranges of `IDX` and `RETRIES`. -/
theorem witness_ResponseSelectsNextByte :
    Sends (.sendcmd 2 0x33 0x22 0x11) [0x11, 0x22, 0x33] .sendcmd ∧
      Sends .kbdinit [0xFF] (fun l => .kbdinit (.reset l)) ∧
      (at_ (.sendcmd .s1) 0).pos = .sendcmd .s1 ∧
      (at_ (.kbdinit (.reset .s1)) 0).pos = .kbdinit (.reset .s1) ∧
      1 + 1 < [0x11#8, 0x22#8, 0x33#8].length ∧ 2 + 1 = [0x11#8, 0x22#8, 0x33#8].length ∧
      ¬ (Instr.sendcmd 2 0x33 0x22 0x11 = .kbdinit ∧ [0x11#8, 0x22#8, 0x33#8] = [0xFF]) ∧
      0 + 1 = [0xFF#8].length ∧ 2 < (at_ .idle 0).par.maxRetries ∧ 3 = (at_ .idle 0).par.maxRetries ∧
      [0x11#8, 0x22#8, 0x33#8].head? = some 0x11 :=
  ⟨witness_sends.1, witness_sends.2.1, rfl, rfl, by decide, by decide, by decide, by decide, by decide, by decide, rfl⟩

theorem witness_SendcmdAllAcknowledged :
    (Instr.sendcmd 2 0x33 0x22 0x11).WellFormed ∧
      Ready (.sendcmd 2 0x33 0x22 0x11) (answers [0, 0xFA, 0, 0xFA, 0, 0xFA]) ∧
      (answers []).unresp = false ∧ (0 : Byte).getLsbD 1 = false ∧
      (answers [0, 0xFA, 0, 0xFA, 0, 0xFA]).envq =
        repeatedBytes (commandBytes 2 0x33 0x22 0x11).length [0, 0xFA] ++ [] := by decide

/-- Three, no and one RESENDs of the three bytes. -/
theorem witness_ResendsThenAckSucceed :
    Ready (.sendcmd 2 0x33 0x22 0x11) (answers []) ∧ (answers []).unresp = false ∧ (0 : Byte).getLsbD 1 = false ∧
      [3, 0, 1].length = (commandBytes 2 0x33 0x22 0x11).length ∧
      (∀ k ∈ [3, 0, 1], k ≤ (answers []).par.maxRetries) ∧
      (answers [0, 0xFE, 0, 0xFE, 0, 0xFE, 0, 0xFA, 0, 0xFA, 0, 0xFE, 0, 0xFA]).envq =
        [3, 0, 1].flatMap (resendsThenAck 0) ++ [] := by decide

/-- Exhaustion on the second byte of a `SENDCMD` after one RESEND of the first, and on `0xFF` in `KBDINIT`. -/
theorem witness_ResendsExhaustRetries :
    Sends (.sendcmd 2 0x33 0x22 0x11) [0x11, 0x22, 0x33] .sendcmd ∧ (answers []).pos = .idle ∧
      entryOf (.sendcmd 2 0x33 0x22 0x11) = .sendcmd .s0 ∧ (answers []).unresp = false ∧
      (0 : Byte).getLsbD 1 = false ∧ [1].length < [0x11#8, 0x22#8, 0x33#8].length ∧
      (∀ k ∈ [1], k ≤ (answers []).par.maxRetries) ∧
      (answers [0, 0xFE, 0, 0xFA, 0, 0xFE, 0, 0xFE, 0, 0xFE, 0, 0xFE]).envq =
        [1].flatMap (resendsThenAck 0) ++ repeatedBytes ((answers []).par.maxRetries + 1) [0, 0xFE] ++ [] ∧
      Sends .kbdinit [0xFF] (fun l => .kbdinit (.reset l)) ∧
      (at_ (.kbdinit (.reset .s0)) 0).pos = .kbdinit (.reset .s0) ∧ ([] : List Nat).length < [0xFF#8].length :=
  ⟨witness_sends.1, rfl, rfl, rfl, by decide, by decide, by decide, by decide, witness_sends.2.1, rfl, by decide⟩

theorem witness_LatchedDeviceShortCircuits :
    Ready (.sendcmd 0 0 0 0xF5) { at_ .idle 0 with unresp := true, latchStatus := .timeout } ∧
      ({ at_ .idle 0 with unresp := true, latchStatus := .timeout } : State).unresp = true := by decide

theorem witness_CommandTimeoutLatches :
    Sends (.sendcmd 2 0x33 0x22 0x11) [0x11, 0x22, 0x33] .sendcmd ∧
      Sends .kbdinit [0xF4] (fun l => .kbdinit (.enable l)) ∧
      ({ at_ (.sendcmd .s1) 24 with ackState := .pending, dl := 25 } : State).expired 25 = false ∧
      ({ at_ (.sendcmd .s1) 25 with ackState := .pending, dl := 25 } : State).expired 25 = true ∧
      ({ at_ (.sendcmd .s1) 25 with ackState := .pending, dl := 25 } : State).ackState = .pending ∧
      ({ at_ (.kbdinit (.enable .s1)) 25 with ackState := .pending, dl := 25 } : State).expired 25 = true ∧
      ({ at_ (.sendcmd (.write (.poll .p2))) 22 with dl := 22 } : State).expired 22 = true ∧
      ({ at_ (.kbdinit (.enable (.write (.poll .p2)))) 22 with dl := 22 } : State).expired 22 = true :=
  ⟨witness_sends.1, witness_sends.2.2, by decide, by decide, rfl, by decide, by decide, by decide⟩

theorem witness_DesyncFailsWithFlush :
    Sends (.sendcmd 2 0x33 0x22 0x11) [0x11, 0x22, 0x33] .sendcmd ∧
      Sends .kbdinit [0xFF] (fun l => .kbdinit (.reset l)) ∧
      ({ at_ (.kbdinit (.reset .s1)) 0 with ackState := .desync, ackByte := 0x1C, envq := [0x00] } : State).ackState =
        .desync ∧
      (at_ (.sendcmd .s1) 0).pos = .sendcmd .s1 ∧ (answers [0x00]).envq = 0x00 :: [] ∧
      (0x00 : Byte).getLsbD 0 = false ∧
      ({ at_ (.sendcmd (.flush .f2)) 2 with dl := 2 } : State).expired 2 = true ∧
      ({ at_ (.kbdinit (.reset (.flush .f2))) 2 with dl := 2 } : State).expired 2 = true :=
  ⟨witness_sends.1, witness_sends.2.1, rfl, rfl, rfl, by decide, by decide, by decide⟩

/-- The latch cleared by `[i0]`, cleared by a reset, set by `[s2]`, and set by the flush after the wait for `0xAA`. -/
theorem witness_LatchClearedOnlyByReinit :
    (∃ t, step { at_ (.ps2init .i0) 0 with req := 0x2400000000, unresp := true } = .next t ∧ t.unresp = false) ∧
      (∃ t, step { at_ .idle 0 with unresp := true, inputs := [.reset] } = .next t ∧ t.unresp = false) ∧
      (∃ t, step { at_ (.sendcmd .s2) 0 with req := 0x30000000F4, ackState := .timedOut } = .next t ∧
        t.unresp = true) ∧
      ∃ t, step { at_ (.kbdinit (.flush .f2)) 0 with req := 0x4000000000 } = .next t ∧ t.unresp = true :=
  ⟨⟨_, rfl, rfl⟩, ⟨_, rfl, rfl⟩, ⟨_, rfl, rfl⟩, ⟨_, rfl, rfl⟩⟩

theorem witness_KbdinitBringsUpKeyboard :
    Ready .kbdinit (answers [0, 0, 1, 0x55, 0, 1, 0x00, 0, 0, 0xFA, 0xAA, 0, 0xFA]) ∧
      (answers [0, 0, 1, 0x55, 0, 1, 0x00, 0, 0, 0xFA, 0xAA, 0, 0xFA]).envq =
        0 :: 0 :: 1 :: 0x55 :: 0 :: 1 :: 0x00 :: 0 :: 0 :: 0xFA :: 0xAA :: 0 :: 0xFA :: [] ∧
      (0 : Byte).getLsbD 0 = false ∧ (0 : Byte).getLsbD 1 = false ∧ (1 : Byte).getLsbD 0 = true := by decide

theorem witness_FailedBringupSendsNothing :
    (at_ (.kbdinit (.init (.selfRead .r1))) 0).pos = .kbdinit (.init (.selfRead .r1)) ∧
      (at_ (.kbdinit (.init (.selfRead .r1))) 0).par.Ok ∧
      ∃ t, exec .kbdinit (at_ (.kbdinit (.init (.selfRead .r1))) 0) = .next t :=
  ⟨rfl, by decide, _, rfl⟩

theorem witness_BatWaitOutcomes :
    (at_ (.kbdinit .b1) 0).pos = .kbdinit .b1 ∧
      ({ at_ (.kbdinit .b1) 99 with ackState := .pending, dl := 100 } : State).expired 100 = false ∧
      ({ at_ (.kbdinit .b1) 100 with ackState := .pending, dl := 100 } : State).expired 100 = true ∧
      ({ at_ (.kbdinit .b1) 0 with ackState := .desync, ackByte := 0xAA } : State).ackState ≠ .pending ∧
      ({ at_ (.kbdinit .b1) 0 with ackState := .acked, ackByte := 0xFA, envq := [0] } : State).ackByte ≠ 0xAA ∧
      (0 : Byte).getLsbD 0 = false ∧
      (at_ (.kbdinit (.flush .f2)) 2).pos = .kbdinit (.flush .f2) ∧
      ({ at_ (.kbdinit (.flush .f2)) 2 with dl := 2 } : State).expired 2 = true := by decide

/-- `FrameOfHostOnlyOperations`, `FrameOfPollingOperations`, `FrameOfDeviceCommands`: every instruction they name
answers a next state, from a state where it can begin. -/
theorem witness_frames :
    (∀ i ∈ [Instr.gettick, .deadline 5, .expired 5, .sleep 5, .scanpop, .clkinit 100, .ps2wr 1, .ps2cmd 0xAE,
      .ps2rd, .ps2flush, .ps2init, .sendcmd 0 0 0 0xF4, .kbdinit], (after (exec i (at_ .idle 0))).isSome) := by decide

/-- A write of the data port by each: `PS2WR`, `KBDINIT` and `SENDCMD`, the last two in states of the invariant; and a
read of it by `KBDINIT`. -/
theorem witness_PortAccessesArePermitted :
    (∃ t, exec (.ps2wr 0xF4) (at_ (.ps2wr .w1) 0) = .next t) ∧
      Inv enabling ∧ (∃ t, exec .kbdinit enabling = .next t ∧ t.trace = [.ioW enabling.par.portPs2Data 0xF4]) ∧
      Inv sending ∧ decode (.request sending.req) = .ok (.sendcmd 2 0x33 0x22 0x11) ∧
      (∃ t, exec (.sendcmd 2 0x33 0x22 0x11) sending = .next t ∧ t.trace = [.ioW sending.par.portPs2Data 0x22]) ∧
      sending.curByte = 0x22 ∧
      Inv draining ∧ decode (.request draining.req) = .ok .kbdinit ∧
      ∃ t, exec .kbdinit draining = .next t ∧ t.trace = [.ioR draining.par.portPs2Data 0x3A] ∧ t.curByte = 0x3A :=
  ⟨⟨_, rfl⟩, witness_invariant_enabling, ⟨_, rfl, rfl⟩, witness_invariant_sending, rfl, ⟨_, rfl, rfl⟩, by decide,
    witness_invariant_draining, rfl, ⟨_, rfl, rfl, by decide⟩⟩

theorem witness_OneResponsePerRequest :
    (∃ t, step { at_ .gettick 0 with req := 0x0200000000 } = .next t) ∧
      ({ at_ .gettick 0 with req := 0x0200000000 } : State).inputs.head? ≠ some .reset :=
  ⟨⟨_, rfl⟩, by decide⟩

theorem witness_ResetMeetsInvariant :
    (Config.Params.setA).Ok ∧ ({ Config.Params.setA with width := 2, oscHz := 1, scanqCap := some 0 }).Ok := by decide

theorem witness_StepKeepsInvariant : Inv bringup ∧ ∃ t, step bringup = .next t :=
  ⟨witness_invariant, _, rfl⟩

theorem witness_EveryActionCompletes :
    (at_ .idle 0).pos = .idle ∧ bringup.pos.op = opOf .ps2init ∧
      Instr.gettick ≠ .advanceTick ∧ Instr.gettick ≠ .kbdByte ∧ bringup.pos ≠ .idle ∧
      bringup.pos.op ≠ opOf .gettick := by decide

theorem witness_BlockNeverStops : Inv bringup := witness_invariant

theorem witness_UnspecifiedLocalsAreNeverRead :
    (at_ .idle 0).pos = .idle ∧
      ∃ a, Host.Core.run Sys2Proof.core 2 { at_ .idle 0 with hostq := [0x1200000005] } = .next a :=
  ⟨rfl, _, rfl⟩

end Sys2Proof.Tests
end

section
/-! SUPPORT. The invariant in two halves: what holds of the registers wherever the sequencer stands, and what the
position asks of the rest of the state. -/

namespace Sys2Proof.Safety

open Sys2Proof.Machine

variable {s t : State} {p q : Position}

/-- How many bytes a command has that operation `o` sends with the word `w` in `REQ`. -/
def lengthIn (o : Op) (w : Word40) : Nat :=
  match o, decodeRequest w with
  | .sendcmd, .ok (.sendcmd nargs arg1 arg0 opcode) => (commandBytes nargs arg1 arg0 opcode).length
  | _, _ => 1

/-- `commandLength` looks at the operation in progress and at `REQ` only. -/
theorem commandLength_eq (s : State) : commandLength s = lengthIn s.pos.op s.req := by
  unfold commandLength lengthIn
  cases s.pos with
  | sendcmd l =>
    cases decodeRequest s.req with
    | error e => rfl
    | ok i => cases i <;> rfl
  | _ => rfl

/-- The half of `Inv` that does not mention the sequencer position. -/
structure RegistersOk (s : State) : Prop where
  params : s.par.Ok
  tick : s.tick < s.modulus
  dl : s.dl < s.modulus
  clock : (s.freq = 0 ∧ s.divisor = 0) ∨
    (1 ≤ s.freq.toNat ∧ s.freq.toNat ≤ s.par.oscHz.toNat ∧
      s.divisor.toNat = min (s.par.oscHz.toNat / s.freq.toNat) 65536)
  queue : ∀ cap, s.par.scanqCap = some cap → s.scanq.length ≤ cap
  overrun : s.overrun = true → s.par.scanqCap ≠ none
  latch : s.unresp = true → (s.latchStatus = .timeout ∧ s.latchValue = 0) ∨
    (s.latchStatus = .deviceUnresponsive ∧ ∃ opcode : Byte, s.latchValue = pair32 0xFE opcode)

/-- The half of `Inv` about the position, for a position `p` that the sequencer of `s` need not stand at yet. -/
structure MayStand (s : State) (p : Position) : Prop where
  slot : slotAt p s.ackState
  ctrl : ctrlAt p s.ctrlState
  usable : usableAt p s.unresp
  request : p.op ≠ .idle → ∃ i, decodeRequest s.req = .ok i ∧ opOf i = p.op
  command : countersLive p = true → s.idx < lengthIn p.op s.req ∧ s.retries ≤ s.par.maxRetries

/-- The fields `RegistersOk` reads. -/
def registersOf (s : State) :=
  (s.par, s.tick, s.dl, s.freq, s.divisor, s.scanq, s.overrun, s.unresp, s.latchStatus, s.latchValue)

/-- The fields `MayStand` reads. -/
def phaseOf (s : State) := (s.ackState, s.ctrlState, s.unresp, s.req, s.idx, s.retries, s.par)

/-- What `MayStand` asks at a position. -/
def demandsAt (p : Position) := (slotAt p, ctrlAt p, usableAt p, p.op, countersLive p)

/-- `RegistersOk` goes over to a state with the same registers. -/
theorem RegistersOk.congr (h : RegistersOk s) (e : registersOf t = registersOf s) : RegistersOk t := by
  simp only [registersOf, Prod.mk.injEq] at e
  obtain ⟨par, tick, dl, freq, divisor, scanq, overrun, unresp, latchStatus, latchValue⟩ := e
  constructor <;>
    simp only [State.modulus, par, tick, dl, freq, divisor, scanq, overrun, unresp, latchStatus, latchValue]
  exacts [h.params, h.tick, h.dl, h.clock, h.queue, h.overrun, h.latch]

/-- `MayStand` goes over to a state in the same phase. -/
theorem MayStand.congr (h : MayStand s p) (e : phaseOf t = phaseOf s) : MayStand t p := by
  simp only [phaseOf, Prod.mk.injEq] at e
  obtain ⟨ack, ctrl, unresp, req, idx, retries, par⟩ := e
  constructor <;> simp only [ack, ctrl, unresp, req, idx, retries, par]
  exacts [h.slot, h.ctrl, h.usable, h.request, h.command]

/-- `MayStand` goes over to a position with the same demands. -/
theorem MayStand.move (h : MayStand s p) (q : Position) (d : demandsAt q = demandsAt p) : MayStand s q := by
  simp only [demandsAt, Prod.mk.injEq] at d
  obtain ⟨slot, ctrl, usable, op, live⟩ := d
  constructor <;> simp only [slot, ctrl, usable, op, live]
  exacts [h.slot, h.ctrl, h.usable, h.request, h.command]

/-! ### The two halves make the invariant -/

theorem op_eq_idle_iff : p.op = .idle ↔ p = .idle := by cases p <;> simp [Position.op]

theorem countersLive_iff : countersLive p = true ↔ ∃ l, sendLabel p = some l ∧ l ≠ .s0 := by
  unfold countersLive
  cases h : sendLabel p with
  | none => simp
  | some l => cases l <;> simp

theorem Inv.registers (h : Inv s) : RegistersOk s :=
  ⟨h.params, h.tick, h.dl, h.clock, h.queue, h.overrun, h.latch⟩

theorem Inv.mayStand (h : Inv s) : MayStand s s.pos where
  slot := h.slot
  ctrl := h.ctrl
  usable := h.usable
  request ho := h.request (fun hp => ho (op_eq_idle_iff.2 hp))
  command hl := by
    obtain ⟨l, hs, h0⟩ := countersLive_iff.1 hl
    exact commandLength_eq s ▸ h.command l hs h0

/-- The halves give the invariant back. -/
theorem inv_of_mayStand (h : RegistersOk s) (m : MayStand s s.pos) : Inv s where
  params := h.params
  tick := h.tick
  dl := h.dl
  clock := h.clock
  queue := h.queue
  overrun := h.overrun
  latch := h.latch
  slot := m.slot
  ctrl := m.ctrl
  usable := m.usable
  request hp := m.request (fun ho => hp (op_eq_idle_iff.1 ho))
  command l hl h0 := commandLength_eq s ▸ m.command (countersLive_iff.2 ⟨l, hl, h0⟩)

/-- The sequencer goes to a position where the state may stand. -/
theorem inv_goto (h : RegistersOk s) (m : MayStand s p) : Inv (s.goto p) :=
  inv_of_mayStand (h.congr (by simp [registersOf])) (m.congr (by simp [phaseOf]))

/-- An idle block asks no more than a slot at rest (R154). -/
theorem mayStand_idle (h : s.ackState = .idle) : MayStand s .idle :=
  ⟨h, trivial, trivial, fun ho => absurd rfl ho, nofun⟩

/-- The operation ends with the slot at rest. -/
theorem inv_respond (h : RegistersOk s) (hs : s.ackState = .idle) (st : Status) (v : Word32) :
    Inv (s.respond st v) :=
  inv_of_mayStand (h.congr (by simp [registersOf])) ((mayStand_idle hs).congr (by simp [phaseOf]))

/-- What the environment, HOST and the history hold is no part of the invariant. -/
theorem Inv.outside (h : Inv s) (hostq : List Word40) (inputs : List Input) (draws : Nat) :
    Inv { s with hostq := hostq, inputs := inputs, draws := draws } :=
  inv_of_mayStand (h.registers.congr rfl) (h.mayStand.congr rfl)

/-! ### The registers after an update -/

theorem RegistersOk.readStatus (h : RegistersOk s) : RegistersOk s.readStatus := h.congr (by simp [registersOf])
theorem RegistersOk.readData (h : RegistersOk s) : RegistersOk s.readData := h.congr (by simp [registersOf])
theorem RegistersOk.setAck (h : RegistersOk s) (a : AckState) : RegistersOk (s.setAck a) :=
  h.congr (by simp [registersOf])
theorem RegistersOk.setCtrl (h : RegistersOk s) (c : CtrlState) : RegistersOk (s.setCtrl c) :=
  h.congr (by simp [registersOf])
theorem RegistersOk.ioWrite (h : RegistersOk s) (p : Port) (b : Byte) : RegistersOk (s.ioWrite p b) :=
  h.congr (by simp [registersOf])

theorem modulus_pos (s : State) : 0 < s.modulus := Nat.two_pow_pos _

theorem RegistersOk.setDeadline (h : RegistersOk s) (ms : Word32) : RegistersOk (s.setDeadline ms) :=
  { h with dl := Nat.mod_lt _ (modulus_pos s) }

theorem RegistersOk.arm (h : RegistersOk s) (ms : Word32) : RegistersOk (s.arm ms) :=
  { h with dl := Nat.mod_lt _ (modulus_pos s) }

theorem RegistersOk.latchTimeout (h : RegistersOk s) : RegistersOk (s.latch .timeout 0) :=
  { h with latch := fun _ => .inl ⟨rfl, rfl⟩ }

theorem RegistersOk.latchUnresponsive (h : RegistersOk s) (opcode : Byte) :
    RegistersOk (s.latch .deviceUnresponsive (pair32 0xFE opcode)) :=
  { h with latch := fun _ => .inr ⟨rfl, opcode, rfl⟩ }

theorem RegistersOk.unlatch (h : RegistersOk s) : RegistersOk { s with unresp := false } :=
  { h with latch := nofun }

theorem RegistersOk.setTick (h : RegistersOk s) {n : Nat} (hn : n < s.modulus) : RegistersOk { s with tick := n } :=
  { h with tick := hn }

/-- `[o1]` takes the oldest byte of the queue. -/
theorem RegistersOk.dequeue (h : RegistersOk s) {b : Byte} {rest : List Byte} (hq : s.scanq = b :: rest) :
    RegistersOk { s with scanq := rest } := by
  refine { h with queue := fun cap hcap => ?_ }
  have := h.queue cap hcap
  rw [hq] at this
  exact Nat.le_of_succ_le this

/-- `[c1]` sets `FREQ` in `[1, OSC_HZ]` and `DIVISOR` to the clamped quotient (R22, R23, R90). -/
theorem RegistersOk.configure (h : RegistersOk s) (freq : Word32) : RegistersOk (clkinitConfigure freq s) := by
  obtain ⟨-, -, osc, -⟩ := h.params
  have below : 1 ≤ s.clampFreq freq ∧ s.clampFreq freq ≤ s.par.oscHz.toNat := by
    unfold State.clampFreq
    split_ifs <;> omega
  have freqKept : (BitVec.ofNat 32 (s.clampFreq freq)).toNat = s.clampFreq freq := by
    have := s.par.oscHz.isLt
    rw [BitVec.toNat_ofNat, Nat.mod_eq_of_lt (by omega)]
  have quotient : s.divisorFor (s.clampFreq freq) = min (s.par.oscHz.toNat / s.clampFreq freq) 65536 := by
    unfold State.divisorFor
    split_ifs <;> omega
  refine { h with clock := .inr ?_ }
  show 1 ≤ (BitVec.ofNat 32 (s.clampFreq freq)).toNat ∧
    (BitVec.ofNat 32 (s.clampFreq freq)).toNat ≤ s.par.oscHz.toNat ∧
    (BitVec.ofNat 17 (s.divisorFor (s.clampFreq freq))).toNat =
      min (s.par.oscHz.toNat / (BitVec.ofNat 32 (s.clampFreq freq)).toNat) 65536
  rw [freqKept, quotient, BitVec.toNat_ofNat, Nat.mod_eq_of_lt (by omega)]
  exact ⟨below.1, below.2, rfl⟩

/-! ### The phase after an update -/

theorem MayStand.readStatus (m : MayStand s p) : MayStand s.readStatus p := m.congr (by simp [phaseOf])
theorem MayStand.readData (m : MayStand s p) : MayStand s.readData p := m.congr (by simp [phaseOf])
theorem MayStand.setDeadline (m : MayStand s p) (ms : Word32) : MayStand (s.setDeadline ms) p :=
  m.congr (by simp [phaseOf])

/-! ### Reset and the events -/

theorem registersOk_resetOf {p : Config.Params} (hp : p.Ok) : RegistersOk (State.resetOf p) :=
  ⟨hp, modulus_pos _, modulus_pos _, .inl ⟨rfl, rfl⟩, fun _ _ => Nat.zero_le _, nofun, nofun⟩

theorem inv_resetOf {p : Config.Params} (hp : p.Ok) : Inv (State.resetOf p) :=
  inv_of_mayStand (registersOk_resetOf hp) (mayStand_idle rfl)

theorem inv_resetInput (h : s.par.Ok) : Inv s.resetInput :=
  inv_of_mayStand ((registersOk_resetOf h).congr rfl) (mayStand_idle rfl)

theorem inv_tickEvent (h : Inv s) : Inv (s.takeEvent s.par.irqTimer advanceTickBody) := by
  rw [tickEvent_effect]
  have hr := h.registers.setTick (Nat.mod_lt (s.tick + 1) (modulus_pos s))
  exact inv_of_mayStand (hr.congr rfl) (h.mayStand.congr rfl)

/-- Where the slot may be armed, it may also hold a deposited byte (R140). -/
theorem slotAt_of_pending {a : AckState} (h : slotAt p .pending) (hi : a ≠ .idle) (ht : a ≠ .timedOut) :
    slotAt p a := by
  have atSend (l : SendPc) (h : slotAtSend l .pending) : slotAtSend l a := by
    cases l with
    | s1 => exact ⟨hi, ht⟩
    | _ => cases h
  cases p with
  | sendcmd l => exact atSend l h
  | kbdinit l =>
    cases l with
    | reset l => exact atSend l h
    | enable l => exact atSend l h
    | b1 => exact ⟨hi, ht⟩
    | _ => cases h
  | _ => cases h

theorem queueHasRoom_iff {cap : Nat} (h : s.par.scanqCap = some cap) :
    s.queueHasRoom = true ↔ s.scanq.length < cap := by
  simp [State.queueHasRoom, h]

theorem queueHasRoom_unbounded (h : s.par.scanqCap = none) : s.queueHasRoom = true := by
  simp [State.queueHasRoom, h]

/-- A deposited byte is classified, so the slot is neither at rest nor timed out (R140). -/
theorem ackClass_deposited (b : Byte) : ackClass b ≠ .idle ∧ ackClass b ≠ .timedOut := by
  unfold ackClass
  split_ifs <;> simp

/-- A byte from the keyboard keeps the invariant: the slot takes it only where it is armed, the queue only below its
capacity, and a byte is dropped only at a bounded queue (R27, R140). -/
theorem inv_kbdEvent (h : Inv s) : Inv (s.takeEvent s.par.irqKbd kbdByteBody) := by
  rw [kbdEvent_effect]
  refine inv_of_mayStand { h.registers with queue := ?_, overrun := ?_ } { h.mayStand with slot := ?_ }
  · intro cap hcap
    dsimp only
    split_ifs with room
    · have := (queueHasRoom_iff (s := s) hcap).1 room.2
      simpa using this
    · exact h.queue cap hcap
  · dsimp only
    split_ifs with full
    · intro _ hcap
      simp [queueHasRoom_unbounded (s := s) hcap] at full
    · exact h.overrun
  · dsimp only
    split_ifs with pending
    · obtain ⟨hi, ht⟩ := ackClass_deposited (s.envAnswer s.par.portPs2Data)
      exact slotAt_of_pending (pending ▸ h.slot) hi ht
    · exact h.slot

end Sys2Proof.Safety
end

section
/-! SUPPORT. Every action of an operation in progress keeps the invariant: one lemma per micro-routine, for every
caller, then one case per instruction. -/

namespace Sys2Proof.Safety

open Sys2Proof.Machine

variable {s t : State}

/-! ### The micro-routines: every label of one asks the same of the state -/

theorem inv_writeToDevice {b : Byte} {arm : Bool} {at_ : WritePc → Position} {ret : Status → State → State}
    (l : WritePc) (h : RegistersOk s) (m : ∀ k, MayStand s (at_ k)) (timeout : Inv (ret .timeout s))
    (armed : arm = true → Inv (ret .ok ((s.ioWrite s.par.portPs2Data b).arm s.par.tAckMs)))
    (unarmed : arm = false → Inv (ret .ok (s.ioWrite s.par.portPs2Data b))) :
    Inv (writeToDevice b arm l at_ ret s) := by
  have polled (k : WritePc) : Inv (s.readStatus.goto (at_ k)) := inv_goto h.readStatus (m k).readStatus
  exact writeToDevice_elim l (p0 := fun _ => inv_goto (h.setDeadline _) ((m _).setDeadline _))
    (free := fun _ _ => polled _) (full := fun _ _ => polled _) (timeout := fun _ _ => timeout)
    (again := fun _ _ => inv_goto h (m _)) (armed := fun _ => armed) (unarmed := fun _ => unarmed)

theorem inv_readFromDevice {at_ : ReadPc → Position} {ret : Status → Byte → State → State}
    (l : ReadPc) (h : RegistersOk s) (m : ∀ k, MayStand s (at_ k)) (timeout : Inv (ret .timeout 0 s))
    (read : ∀ b, Inv (ret .ok b s.readData)) : Inv (readFromDevice l at_ ret s) := by
  have polled (k : ReadPc) : Inv (s.readStatus.goto (at_ k)) := inv_goto h.readStatus (m k).readStatus
  exact readFromDevice_elim l (p0 := fun _ => inv_goto (h.setDeadline _) ((m _).setDeadline _))
    (full := fun _ _ => polled _) (empty := fun _ _ => polled _) (timeout := fun _ _ => timeout)
    (again := fun _ _ => inv_goto h (m _)) (read := fun _ => read _)

theorem inv_cmdWrite {c : Byte} {at_ : CmdPc → Position} {ret : Status → State → State}
    (l : CmdPc) (h : RegistersOk s) (m : ∀ k, MayStand s (at_ k)) (timeout : Inv (ret .timeout s))
    (wrote : Inv (ret .ok (s.ioWrite s.par.portPs2StCmd c))) : Inv (cmdWrite c l at_ ret s) := by
  have polled (k : CmdPc) : Inv (s.readStatus.goto (at_ k)) := inv_goto h.readStatus (m k).readStatus
  exact cmdWrite_elim l (p0 := fun _ => inv_goto (h.setDeadline _) ((m _).setDeadline _))
    (free := fun _ _ => polled _) (full := fun _ _ => polled _) (timeout := fun _ _ => timeout)
    (again := fun _ _ => inv_goto h (m _)) (write := fun _ => wrote)

theorem inv_flush {at_ : FlushPc → Position} {ret : Status → State → State}
    (l : FlushPc) (h : RegistersOk s) (m : ∀ k, MayStand s (at_ k)) (timeout : Inv (ret .timeout s))
    (emptied : Inv (ret .ok s.readStatus)) : Inv (flush l at_ ret s) :=
  flush_elim l (f0 := fun _ => inv_goto (h.setDeadline _) ((m _).setDeadline _)) (empty := fun _ _ => emptied)
    (full := fun _ _ => inv_goto h.readStatus (m _).readStatus) (timeout := fun _ _ => timeout)
    (again := fun _ _ => inv_goto h (m _)) (discard := fun _ => inv_goto h.readData (m _).readData)

/-! ### The bring-up -/

/-- What `ps2_init` keeps at its labels, whoever the caller is. -/
structure BringUpAt (l : InitPc) (s : State) : Prop where
  slot : s.ackState = .idle
  ctrl : ctrlAtInit l s.ctrlState
  usable : l ≠ .i0 → s.unresp = false

/-- `ps2_init` keeps the invariant for every caller whose positions ask no more than `BringUpAt`. -/
theorem inv_ps2Init {at_ : InitPc → Position} {ret : Status → Word32 → State → State} (l : InitPc)
    (h : RegistersOk s) (b : BringUpAt l s)
    (stand : ∀ k u, u.req = s.req → BringUpAt k u → MayStand u (at_ k))
    (fails : ∀ st v u, st ≠ .ok → RegistersOk u → u.ackState = .idle → Inv (ret st v u))
    (done : ∀ u, RegistersOk u → u.req = s.req → u.ackState = .idle → u.unresp = false →
      u.ctrlState = .deviceEnabled → Inv (ret .ok 0 u)) :
    Inv (ps2Init l at_ ret s) := by
  obtain ⟨slot, ctrl, usable⟩ := b
  refine ps2Init_elim l (fun _ => ?i0) (fun e => ?i1) (fun e => ?i2) (fun k e => ?flush) (fun k e => ?selfCmd)
    (fun k e => ?selfRead) (fun k e => ?portCmd) (fun k e => ?portRead) (fun k e => ?enable)
  case i0 => exact inv_goto (h.unlatch.setCtrl _) (stand _ _ rfl ⟨slot, rfl, fun _ => rfl⟩)
  all_goals
    subst e
    have ready : s.unresp = false := usable nofun
    have here (k : InitPc) (hk : ctrlAtInit k s.ctrlState) : MayStand s (at_ k) :=
      stand k s rfl ⟨slot, hk, fun _ => ready⟩
    have moves (k : InitPc) (c : CtrlState) (hk : ctrlAtInit k c) : MayStand (s.setCtrl c) (at_ k) :=
      stand k _ rfl ⟨slot, hk, fun _ => ready⟩
    have failed (c : CtrlState) : Inv (ret .timeout 0 (s.setCtrl c)) := fails _ _ _ nofun (h.setCtrl c) slot
  case i1 => exact inv_goto (h.setCtrl _) (moves _ .selfTestPending rfl)
  case i2 => exact inv_goto (h.setCtrl _) (moves _ .portTestPending rfl)
  case flush =>
    exact inv_flush k h (fun _ => here _ ctrl) (fails _ _ _ nofun h slot)
      (inv_goto h.readStatus (here .i1 ctrl).readStatus)
  case selfCmd =>
    exact inv_cmdWrite k h (fun _ => here _ ctrl) (failed _)
      (inv_goto (h.ioWrite _ _) ((here (.selfRead (.poll .p0)) ctrl).congr (by simp [phaseOf])))
  case selfRead =>
    refine inv_readFromDevice k h (fun _ => here _ ctrl) (by simpa only [if_true] using failed _) (fun b => ?_)
    simp only [reduceCtorEq, if_false]
    split
    · exact fails _ _ _ nofun (h.readData.setCtrl _) (by simpa using slot)
    · exact inv_goto (h.readData.setCtrl _) ((moves .i2 .selfTestOk rfl).congr (by simp [phaseOf]))
  case portCmd =>
    exact inv_cmdWrite k h (fun _ => here _ ctrl) (failed _)
      (inv_goto (h.ioWrite _ _) ((here (.portRead (.poll .p0)) ctrl).congr (by simp [phaseOf])))
  case portRead =>
    refine inv_readFromDevice k h (fun _ => here _ ctrl) (by simpa only [if_true] using failed _) (fun b => ?_)
    simp only [reduceCtorEq, if_false]
    split
    · exact fails _ _ _ nofun (h.readData.setCtrl _) (by simpa using slot)
    · exact inv_goto (h.readData.setCtrl _)
        ((moves (.enable (.poll .p0)) .portReady rfl).congr (by simp [phaseOf]))
  case enable =>
    exact inv_cmdWrite k h (fun _ => here _ ctrl) (fails _ _ _ nofun h slot)
      (done _ ((h.ioWrite _ _).setCtrl _) (by simp) (by simpa using slot) (by simpa using ready) rfl)

/-! ### The command protocol -/

/-- What `send_command` on `n` bytes keeps at its labels, whoever the caller is. -/
structure SendAt (n : Nat) (l : SendPc) (s : State) : Prop where
  slot : slotAtSend l s.ackState
  usable : l ≠ .s0 → s.unresp = false
  command : l ≠ .s0 → s.idx < n ∧ s.retries ≤ s.par.maxRetries

/-- The fields the callers of `send_command` rely on and it does not write. -/
def callerOf (s : State) := (s.ctrlState, s.req)

/-- One evaluation of `[s1]`; the two stray slot states of log 13 are excluded by the slot's half of the invariant. -/
theorem inv_awaitAction {bytes : List Byte} {rearm : Bool} {at_ : SendPc → Position}
    {ret : Status → Word32 → State → State}
    (h : RegistersOk s) (c : SendAt bytes.length .s1 s)
    (stand : ∀ k u, k ≠ .s0 → callerOf u = callerOf s → SendAt bytes.length k u → MayStand u (at_ k))
    (fails : ∀ st v u, st ≠ .ok → RegistersOk u → u.ackState = .idle → Inv (ret st v u))
    (done : ∀ u, RegistersOk u → callerOf u = callerOf s → u.unresp = false →
      u.ackState = (if rearm then .pending else .idle) → Inv (ret .ok 0 u)) :
    Inv (awaitAction bytes rearm at_ ret s) := by
  obtain ⟨⟨notIdle, notTimedOut⟩, usable, command⟩ := c
  obtain ⟨idx, retries⟩ := command nofun
  have ready : s.unresp = false := usable nofun
  refine awaitAction_elim (fun _ _ => ?expired) (fun _ _ => ?waits) (fun _ _ hr => ?lastRearm) (fun _ _ hr => ?last)
    (fun _ hl => ?more) (fun _ _ => ?exhausted) (fun _ hm => ?retry) (fun _ => ?desync) (fun ho => ?outside)
  case expired =>
    exact inv_goto (h.setAck _) (stand _ _ nofun (by simp [callerOf])
      ⟨rfl, fun _ => by simpa using ready, by simpa using command⟩)
  case waits =>
    exact inv_goto h (stand _ s nofun rfl ⟨⟨notIdle, notTimedOut⟩, fun _ => ready, fun _ => command nofun⟩)
  case lastRearm => exact done _ (h.arm _) (by simp [callerOf]) (by simpa using ready) (by simp [hr])
  case last => exact done _ (h.setAck _) (by simp [callerOf]) (by simpa using ready) (by simp [hr])
  case more =>
    exact inv_goto (h.congr (by simp [registersOf])) (stand _ _ nofun (by simp [callerOf])
      ⟨rfl, fun _ => by simpa using ready, fun _ => ⟨by dsimp only; omega, Nat.zero_le _⟩⟩)
  case exhausted => exact fails _ _ _ nofun ((h.setAck _).latchUnresponsive _) rfl
  case retry =>
    exact inv_goto (h.congr (by simp [registersOf])) (stand _ _ nofun (by simp [callerOf])
      ⟨rfl, fun _ => by simpa using ready, fun _ => ⟨by simpa using idx, Nat.lt_of_le_of_ne retries hm⟩⟩)
  case desync =>
    exact inv_goto (h.setAck _) (stand _ _ nofun (by simp [callerOf])
      ⟨rfl, fun _ => by simpa using ready, by simpa using command⟩)
  case outside => exact absurd ho (by simp [notIdle, notTimedOut])

/-- `send_command` keeps the invariant for every caller whose positions ask no more than `SendAt`. -/
theorem inv_sendCommand {bytes : List Byte} {rearm : Bool} {at_ : SendPc → Position}
    {ret : Status → Word32 → State → State} (l : SendPc)
    (h : RegistersOk s) (c : SendAt bytes.length l s) (nonempty : 0 < bytes.length)
    (stand : ∀ k u, k ≠ .s0 → callerOf u = callerOf s → SendAt bytes.length k u → MayStand u (at_ k))
    (fails : ∀ st v u, st ≠ .ok → RegistersOk u → u.ackState = .idle → Inv (ret st v u))
    (done : ∀ u, RegistersOk u → callerOf u = callerOf s → u.unresp = false →
      u.ackState = (if rearm then .pending else .idle) → Inv (ret .ok 0 u)) :
    Inv (sendCommand bytes rearm l at_ ret s) := by
  refine sendCommand_elim l (fun e hu => ?latched) (fun e hu => ?begins) (fun k e => ?write) (fun e => ?await)
    (fun e => ?s2) (fun e => ?s3) (fun k e => ?flush)
  all_goals subst e
  case latched =>
    have failed : s.latchStatus ≠ .ok := by rcases h.latch hu with ⟨hl, -⟩ | ⟨hl, -⟩ <;> simp [hl]
    exact fails _ _ _ failed h c.slot
  case begins =>
    exact inv_goto (h.congr (by simp [registersOf])) (stand _ _ nofun (by simp [callerOf])
      ⟨c.slot, fun _ => by simpa using hu, fun _ => ⟨nonempty, Nat.zero_le _⟩⟩)
  case await => exact inv_awaitAction h c stand fails done
  all_goals
    have ready : s.unresp = false := c.usable nofun
    have command : s.idx < bytes.length ∧ s.retries ≤ s.par.maxRetries := c.command nofun
    have here (k : SendPc) (h0 : k ≠ .s0) (hk : slotAtSend k s.ackState) : MayStand s (at_ k) :=
      stand k s h0 rfl ⟨hk, fun _ => ready, fun _ => command⟩
  case write =>
    have rest : s.ackState = .idle := c.slot
    exact inv_writeToDevice k h (fun _ => here _ nofun rest) (fails _ _ _ nofun h.latchTimeout (by simpa using rest))
      (fun _ => inv_goto ((h.ioWrite _ _).arm _) (stand _ _ nofun (by simp [callerOf])
        ⟨⟨nofun, nofun⟩, fun _ => by simpa using ready, fun _ => by simpa using command⟩)) nofun
  case s2 => exact fails _ _ _ nofun (h.setAck _).latchTimeout rfl
  case s3 => exact inv_goto h (here _ nofun c.slot)
  case flush =>
    have rest : s.ackState = .idle := c.slot
    exact inv_flush k h (fun _ => here _ nofun rest) (fails _ _ _ nofun h.latchTimeout (by simpa using rest))
      (fails _ _ _ nofun h.readStatus (by simpa using rest))

end Sys2Proof.Safety
end

section
/-! SUPPORT. One case per instruction: the action of the request in progress keeps the invariant. -/

namespace Sys2Proof.Safety

open Sys2Proof.Machine

variable {s t : State}

theorem usableAt_ps2init {l : InitPc} {u : Bool} : usableAt (.ps2init l) u ↔ (l ≠ .i0 → u = false) := by
  cases l <;> simp [usableAt]

theorem usableAt_kbdinit_init {l : InitPc} {u : Bool} :
    usableAt (.kbdinit (.init l)) u ↔ (l ≠ .i0 → u = false) := by
  cases l <;> simp [usableAt]

theorem usableAt_sendcmd {l : SendPc} {u : Bool} : usableAt (.sendcmd l) u ↔ (l ≠ .s0 → u = false) := by
  cases l <;> simp [usableAt]

theorem countersLive_send {p : Position} {l : SendPc} (hp : sendLabel p = some l) :
    countersLive p = true ↔ l ≠ .s0 := by
  simp [countersLive_iff, hp]

theorem inv_clkinitAction {freq : Word32} {l : ClkPc} (h : RegistersOk s) (m : MayStand s (.clkinit l)) :
    Inv (clkinitAction freq l s) := by
  have stand (k : ClkPc) {u : State} (e : phaseOf u = phaseOf s) : MayStand u (.clkinit k) :=
    (m.move (.clkinit k) rfl).congr e
  cases l with
  | c1 => exact inv_goto (h.configure freq) (stand _ (by simp [phaseOf, clkinitConfigure]))
  | c2 => exact inv_goto (h.ioWrite _ _) (stand _ (by simp [phaseOf]))
  | c3 => exact inv_goto (h.ioWrite _ _) (stand _ (by simp [phaseOf]))
  | c4 => exact inv_respond (h.setTick (modulus_pos s)) m.slot _ _

theorem inv_sleepAction {ms : Word32} {l : SleepPc} (h : RegistersOk s) (m : MayStand s (.sleep l)) :
    Inv (sleepAction ms l s) := by
  cases l with
  | s0 => exact inv_goto (h.setDeadline ms) ((m.move (.sleep .s1) rfl).setDeadline ms)
  | s1 =>
    rw [sleepAction]
    split
    · exact inv_respond h m.slot _ _
    · exact inv_goto h m

theorem inv_scanpopAction (h : RegistersOk s) (m : MayStand s .scanpop) : Inv (scanpopAction s) := by
  unfold scanpopAction
  split
  case h_1 => exact inv_respond h m.slot _ _
  case h_2 b rest hq => exact inv_respond (h.dequeue hq) m.slot _ _

theorem inv_ps2InitAction {l : InitPc} (h : RegistersOk s) (m : MayStand s (.ps2init l)) :
    Inv (ps2Init l .ps2init (fun st v s => s.respond st v) s) := by
  refine inv_ps2Init l h ⟨m.slot, m.ctrl, usableAt_ps2init.1 m.usable⟩ (fun k u hreq b => ?_)
    (fun st v u _ hu ha => inv_respond hu ha st v) (fun u hu _ ha _ _ => inv_respond hu ha _ _)
  exact ⟨b.slot, b.ctrl, usableAt_ps2init.2 b.usable, fun _ => hreq ▸ m.request nofun, nofun⟩

theorem inv_sendcmdAction {nargs : BitVec 2} {arg1 arg0 opcode : Byte} {l : SendPc} (h : RegistersOk s)
    (m : MayStand s (.sendcmd l)) (hd : decodeRequest s.req = .ok (.sendcmd nargs arg1 arg0 opcode)) :
    Inv (sendCommand (commandBytes nargs arg1 arg0 opcode) false l .sendcmd (fun st v s => s.respond st v) s) := by
  have length : lengthIn .sendcmd s.req = (commandBytes nargs arg1 arg0 opcode).length := by simp [lengthIn, hd]
  refine inv_sendCommand l h
    ⟨m.slot, usableAt_sendcmd.1 m.usable, fun h0 => length ▸ m.command ((countersLive_send rfl).2 h0)⟩
    (by simp [commandBytes]) (fun k u h0 hu c => ?_) (fun st v u _ hu ha => inv_respond hu ha st v)
    (fun u hu _ _ ha => inv_respond hu ha _ _)
  obtain ⟨-, hreq⟩ := Prod.mk.inj hu
  exact ⟨c.slot, trivial, usableAt_sendcmd.2 c.usable, fun _ => hreq ▸ m.request nofun,
    fun _ => by rw [Position.op, hreq, length]; exact c.command h0⟩

/-! ### `KBDINIT` -/

/-- What `KBDINIT` keeps after its bring-up. -/
structure BroughtUp (s : State) : Prop where
  ctrl : s.ctrlState = .deviceEnabled
  usable : s.unresp = false
  request : ∃ i, decodeRequest s.req = .ok i ∧ opOf i = .kbdinit

theorem MayStand.broughtUp {l : KbdPc} (m : MayStand s (.kbdinit l)) (after : ∀ k, l ≠ .init k) : BroughtUp s := by
  refine ⟨?_, ?_, m.request nofun⟩
  · cases l with
    | init k => exact absurd rfl (after k)
    | _ => exact m.ctrl
  · cases l with
    | init k => exact absurd rfl (after k)
    | _ => exact m.usable

theorem BroughtUp.mayStand {l : KbdPc} (b : BroughtUp s) (after : ∀ k, l ≠ .init k)
    (slot : slotAt (.kbdinit l) s.ackState)
    (command : countersLive (.kbdinit l) = true → s.idx < 1 ∧ s.retries ≤ s.par.maxRetries) :
    MayStand s (.kbdinit l) := by
  refine ⟨slot, ?_, ?_, fun _ => b.request, command⟩
  · cases l with
    | init k => exact absurd rfl (after k)
    | _ => exact b.ctrl
  · cases l with
    | init k => exact absurd rfl (after k)
    | _ => exact b.usable

theorem BroughtUp.congr (b : BroughtUp s) (e : callerOf t = callerOf s) (hu : t.unresp = false) : BroughtUp t := by
  obtain ⟨ctrl, req⟩ := Prod.mk.inj e
  exact ⟨ctrl ▸ b.ctrl, hu, req ▸ b.request⟩

theorem inv_kbdinit_init {l : InitPc} (h : RegistersOk s) (m : MayStand s (.kbdinit (.init l))) :
    Inv (kbdinitAction (.init l) s) := by
  rw [kbdinitAction]
  refine inv_ps2Init l h ⟨m.slot, m.ctrl, usableAt_kbdinit_init.1 m.usable⟩ (fun k u hreq b => ?_)
    (fun st v u hst hu ha => ?_) (fun u hu hreq ha hunresp hctrl => ?_)
  · exact ⟨b.slot, b.ctrl, usableAt_kbdinit_init.2 b.usable, fun _ => hreq ▸ m.request nofun, nofun⟩
  · simpa only [hst, if_false] using inv_respond hu ha st v
  · have b : BroughtUp u := ⟨hctrl, hunresp, hreq ▸ m.request nofun⟩
    exact inv_goto hu (b.mayStand (l := .reset .s0) nofun ha nofun)

theorem inv_kbdinit_reset {l : SendPc} (h : RegistersOk s) (m : MayStand s (.kbdinit (.reset l))) :
    Inv (kbdinitAction (.reset l) s) := by
  have b := m.broughtUp nofun
  rw [kbdinitAction]
  refine inv_sendCommand l h ⟨m.slot, fun _ => b.usable, fun h0 => m.command ((countersLive_send rfl).2 h0)⟩
    (by simp) (fun k u h0 hu c => ?_) (fun st v u hst hu ha => ?_) (fun u hu hc hunresp ha => ?_)
  · exact (b.congr hu (c.usable h0)).mayStand nofun c.slot fun _ => c.command h0
  · simpa only [hst, if_false] using inv_respond hu ha st v
  · exact inv_goto hu ((b.congr hc hunresp).mayStand (l := .b1) nofun (by simp [slotAt, ha]) nofun)

theorem inv_kbdinit_enable {l : SendPc} (h : RegistersOk s) (m : MayStand s (.kbdinit (.enable l))) :
    Inv (kbdinitAction (.enable l) s) := by
  have b := m.broughtUp nofun
  rw [kbdinitAction]
  refine inv_sendCommand l h ⟨m.slot, fun _ => b.usable, fun h0 => m.command ((countersLive_send rfl).2 h0)⟩
    (by simp) (fun k u h0 hu c => ?_) (fun st v u _ hu ha => inv_respond hu ha st v)
    (fun u hu _ _ ha => inv_respond hu ha _ _)
  exact (b.congr hu (c.usable h0)).mayStand nofun c.slot fun _ => c.command h0

theorem inv_batAction (h : RegistersOk s) (m : MayStand s (.kbdinit .b1)) : Inv (batAction s) := by
  have b := m.broughtUp nofun
  have stand (l : KbdPc) (a : AckState) (after : ∀ k, l ≠ .init k) (slot : slotAt (.kbdinit l) a)
      (quiet : countersLive (.kbdinit l) = false) : MayStand (s.setAck a) (.kbdinit l) :=
    (b.congr (t := s.setAck a) (by simp [callerOf]) b.usable).mayStand after slot (by simp [quiet])
  unfold batAction
  split
  · split
    · exact inv_goto (h.setAck _) (stand .b2 _ nofun rfl rfl)
    · exact inv_goto h m
  all_goals
    split
    · exact inv_goto (h.setAck _) (stand (.enable .s0) _ nofun rfl rfl)
    · exact inv_goto (h.setAck _) (stand .b3 _ nofun rfl rfl)

theorem inv_kbdinitAction {l : KbdPc} (h : RegistersOk s) (m : MayStand s (.kbdinit l)) : Inv (kbdinitAction l s) := by
  cases l with
  | init l => exact inv_kbdinit_init h m
  | reset l => exact inv_kbdinit_reset h m
  | enable l => exact inv_kbdinit_enable h m
  | b1 => exact inv_batAction h m
  | b2 => exact inv_respond (h.setAck _).latchTimeout rfl _ _
  | b3 => exact inv_goto h (m.move (.kbdinit (.flush .f0)) rfl)
  | flush l =>
    have rest : s.ackState = .idle := m.slot
    rw [kbdinitAction]
    exact inv_flush l h (fun k => m.move (.kbdinit (.flush k)) rfl)
      (inv_respond h.latchTimeout (by simpa using rest) _ _) (inv_respond h.readStatus (by simpa using rest) _ _)

/-! ### The step -/

/-- The action of the request in progress keeps the invariant. -/
theorem inv_exec_request {i : Instr} (hi : Inv s) (hp : s.pos ≠ .idle) (hd : decodeRequest s.req = .ok i)
    (he : exec i s = .next t) : Inv t := by
  have h := hi.registers
  have m := hi.mayStand
  cases i with
  | advanceTick => exact absurd rfl (decodeRequest_ok_isRequest hd).1
  | kbdByte => exact absurd rfl (decodeRequest_ok_isRequest hd).2
  | gettick =>
    obtain ⟨hpos | hpos, rfl⟩ := exec_gettick_next he
    · exact inv_respond h (hpos ▸ m).slot _ _
    · exact absurd hpos hp
  | deadline ms =>
    obtain ⟨hpos | hpos, rfl⟩ := exec_deadline_next ms he
    · exact inv_respond h (hpos ▸ m).slot _ _
    · exact absurd hpos hp
  | expired d =>
    obtain ⟨hpos | hpos, rfl⟩ := exec_expired_next d he
    · exact inv_respond h (hpos ▸ m).slot _ _
    · exact absurd hpos hp
  | scanpop =>
    obtain ⟨hpos | hpos, rfl⟩ := exec_scanpop_next he
    · exact inv_scanpopAction h (hpos ▸ m)
    · exact absurd hpos hp
  | clkinit freq =>
    obtain ⟨l, hpos | ⟨hpos, -⟩, rfl⟩ := exec_clkinit_next freq he
    · exact inv_clkinitAction h (hpos ▸ m)
    · exact absurd hpos hp
  | sleep ms =>
    obtain ⟨l, hpos | ⟨hpos, -⟩, rfl⟩ := exec_sleep_next ms he
    · exact inv_sleepAction h (hpos ▸ m)
    · exact absurd hpos hp
  | ps2wr byte =>
    obtain ⟨l, hpos | ⟨hpos, -⟩, rfl⟩ := exec_ps2wr_next byte he
    · have rest : s.ackState = .idle := (hpos ▸ m : MayStand s (.ps2wr l)).slot
      exact inv_writeToDevice l h (fun k => (hpos ▸ m).move (.ps2wr k) rfl) (inv_respond h rest _ _) nofun
        (fun _ => inv_respond (h.ioWrite _ _) rest _ _)
    · exact absurd hpos hp
  | ps2rd =>
    obtain ⟨l, hpos | ⟨hpos, -⟩, rfl⟩ := exec_ps2rd_next he
    · have rest : s.ackState = .idle := (hpos ▸ m : MayStand s (.ps2rd l)).slot
      exact inv_readFromDevice l h (fun k => (hpos ▸ m).move (.ps2rd k) rfl) (inv_respond h rest _ _)
        (fun _ => inv_respond h.readData rest _ _)
    · exact absurd hpos hp
  | ps2flush =>
    obtain ⟨l, hpos | ⟨hpos, -⟩, rfl⟩ := exec_ps2flush_next he
    · have rest : s.ackState = .idle := (hpos ▸ m : MayStand s (.ps2flush l)).slot
      exact inv_flush l h (fun k => (hpos ▸ m).move (.ps2flush k) rfl) (inv_respond h rest _ _)
        (inv_respond h.readStatus rest _ _)
    · exact absurd hpos hp
  | ps2cmd cmd =>
    obtain ⟨l, hpos | ⟨hpos, -⟩, rfl⟩ := exec_ps2cmd_next cmd he
    · have rest : s.ackState = .idle := (hpos ▸ m : MayStand s (.ps2cmd l)).slot
      exact inv_cmdWrite l h (fun k => (hpos ▸ m).move (.ps2cmd k) rfl) (inv_respond h rest _ _)
        (inv_respond (h.ioWrite _ _) rest _ _)
    · exact absurd hpos hp
  | ps2init =>
    obtain ⟨l, hpos | ⟨hpos, -⟩, rfl⟩ := exec_ps2init_next he
    · exact inv_ps2InitAction h (hpos ▸ m)
    · exact absurd hpos hp
  | sendcmd nargs arg1 arg0 opcode =>
    obtain ⟨l, hpos | ⟨hpos, -⟩, rfl⟩ := exec_sendcmd_next nargs arg1 arg0 opcode he
    · exact inv_sendcmdAction h (hpos ▸ m) hd
    · exact absurd hpos hp
  | kbdinit =>
    obtain ⟨l, hpos | ⟨hpos, -⟩, rfl⟩ := exec_kbdinit_next he
    · exact inv_kbdinitAction h (hpos ▸ m)
    · exact absurd hpos hp

end Sys2Proof.Safety
end

section
/-! SUPPORT. What one action of a request does to the event history: the port access of the label it runs, then at
most the response. -/

namespace Sys2Proof.Safety

open Sys2Proof.Machine

variable {s t u : State}

/-! ### The port access of a label -/

/-- The port access of one action. -/
inductive Access where
  | nothing
  | status
  | data
  | write (p : Port) (b : Byte)

/-- The entries of the history an access leaves, with the byte the environment answers in `s`. -/
def Access.entries (s : State) : Access → List TraceEvent
  | .nothing => []
  | .status => [.ioR s.par.portPs2StCmd (s.envAnswer s.par.portPs2StCmd)]
  | .data => [.ioR s.par.portPs2Data (s.envAnswer s.par.portPs2Data)]
  | .write p b => [.ioW p b]

/-- The access at a label of `poll_wait` (R115). -/
def pollAccess : PollPc → Access
  | .p1 => .status
  | .p0 | .p2 => .nothing

/-- The access at a label of `write_to_device` (R116). -/
def writeAccess (s : State) (b : Byte) : WritePc → Access
  | .poll l => pollAccess l
  | .w1 => .write s.par.portPs2Data b

theorem writeAccess_ne_data (s : State) (b : Byte) (l : WritePc) : writeAccess s b l ≠ .data := by
  cases l with
  | poll l => cases l <;> nofun
  | w1 => nofun

/-- The access at a label of `read_from_device` (R117). -/
def readAccess : ReadPc → Access
  | .poll l => pollAccess l
  | .r1 => .data

/-- The access at a label of `cmd_write` (R118). -/
def cmdAccess (s : State) (c : Byte) : CmdPc → Access
  | .poll l => pollAccess l
  | .k1 => .write s.par.portPs2StCmd c

/-- The access at a label of `flush` (R119). -/
def flushAccess : FlushPc → Access
  | .f1 => .status
  | .f3 => .data
  | .f0 | .f2 => .nothing

/-- The access at a label of `ps2_init` (R121). -/
def initAccess (s : State) : InitPc → Access
  | .flush l => flushAccess l
  | .selfCmd l => cmdAccess s 0xAA l
  | .portCmd l => cmdAccess s 0xAB l
  | .enable l => cmdAccess s 0xAE l
  | .selfRead l | .portRead l => readAccess l
  | .i0 | .i1 | .i2 => .nothing

/-- The access at a label of `send_command` (R141). -/
def sendAccess (s : State) (bytes : List Byte) : SendPc → Access
  | .write l => writeAccess s (bytes.getD s.idx 0) l
  | .flush l => flushAccess l
  | .s0 | .s1 | .s2 | .s3 => .nothing

/-- The access at a label of `KBDINIT` (R160). -/
def kbdAccess (s : State) : KbdPc → Access
  | .init l => initAccess s l
  | .reset l => sendAccess s [0xFF] l
  | .enable l => sendAccess s [0xF4] l
  | .flush l => flushAccess l
  | .b1 | .b2 | .b3 => .nothing

/-- The access at a label of `CLKINIT` (R90). -/
def clkinitAccess (s : State) : ClkPc → Access
  | .c1 => .write s.par.portPitCtrl s.par.pitCw
  | .c2 => .write s.par.portPitCh0 (s.divisor.extractLsb' 0 8)
  | .c3 => .write s.par.portPitCh0 (s.divisor.extractLsb' 8 8)
  | .c4 => .nothing

/-- The access of the action of instruction `i` at position `p`. -/
def accessOf (s : State) (i : Instr) (p : Position) : Access :=
  match i, p with
  | .clkinit _, .clkinit l => clkinitAccess s l
  | .ps2wr byte, .ps2wr l => writeAccess s byte l
  | .ps2rd, .ps2rd l => readAccess l
  | .ps2flush, .ps2flush l => flushAccess l
  | .ps2cmd cmd, .ps2cmd l => cmdAccess s cmd l
  | .ps2init, .ps2init l => initAccess s l
  | .sendcmd nargs arg1 arg0 opcode, .sendcmd l => sendAccess s (commandBytes nargs arg1 arg0 opcode) l
  | .kbdinit, .kbdinit l => kbdAccess s l
  | _, _ => .nothing

/-! ### An action: the access, then a move or the response -/

/-- `u` is `s` after the access `a`, before the action moves on. -/
structure Did (s : State) (a : Access) (u : State) : Prop where
  par : u.par = s.par
  hostq : u.hostq = s.hostq
  trace : u.trace = a.entries s ++ s.trace
  cur : a = .data → u.cur = s.envAnswer s.par.portPs2Data

/-- `t` is `s` after an action with the access `a`: the operation goes on, or it ends with its response. -/
structure Acted (s : State) (a : Access) (t : State) : Prop where
  par : t.par = s.par
  hostq : t.hostq = s.hostq
  history : (t.pos ≠ .idle ∧ t.trace = a.entries s ++ s.trace) ∨
    (t.pos = .idle ∧ ∃ st v, t.trace = .rsp st v :: (a.entries s ++ s.trace))
  cur : a = .data → t.curByte = s.envAnswer s.par.portPs2Data

/-- The fields `Did` reads. -/
def recordOf (s : State) := (s.par, s.hostq, s.trace, s.cur)

theorem Did.congr {a : Access} {v : State} (d : Did s a u) (e : recordOf v = recordOf u) : Did s a v := by
  simp only [recordOf, Prod.mk.injEq] at e
  obtain ⟨par, hostq, trace, cur⟩ := e
  exact ⟨par ▸ d.par, hostq ▸ d.hostq, trace ▸ d.trace, fun ha => cur ▸ d.cur ha⟩

theorem did_nothing (s : State) : Did s .nothing s := ⟨rfl, rfl, rfl, nofun⟩
theorem did_setDeadline (s : State) (ms : Word32) : Did s .nothing (s.setDeadline ms) := ⟨rfl, rfl, rfl, nofun⟩
theorem did_readStatus (s : State) : Did s .status s.readStatus :=
  ⟨by simp, by simp, by simp [Access.entries], nofun⟩
theorem did_readData (s : State) : Did s .data s.readData :=
  ⟨by simp, by simp, by simp [Access.entries], fun _ => by simp⟩
theorem did_ioWrite (s : State) (p : Port) (b : Byte) : Did s (.write p b) (s.ioWrite p b) :=
  ⟨by simp, by simp, by simp [Access.entries], nofun⟩

theorem Did.respond {a : Access} (d : Did s a u) (st : Status) (v : Word32) : Acted s a (u.respond st v) where
  par := by simpa using d.par
  hostq := by simpa using d.hostq
  history := .inr ⟨by simp, st, v, by simp [d.trace]⟩
  cur ha := by simpa using d.cur ha

theorem Did.goto {a : Access} (d : Did s a u) {p : Position} (hp : p ≠ .idle)
    (hw : a = .data → (u.goto p).byteBeingWritten = none) : Acted s a (u.goto p) where
  par := by simpa using d.par
  hostq := by simpa using d.hostq
  history := .inl ⟨hp, by simp [d.trace]⟩
  cur ha := by simpa [State.curByte_of_none _ (hw ha)] using d.cur ha

theorem acted_nothing (hp : s.pos ≠ .idle) : Acted s .nothing s := ⟨rfl, rfl, .inl ⟨hp, rfl⟩, nofun⟩

/-! ### The micro-routines -/

theorem writeToDevice_acted {b : Byte} {arm : Bool} {at_ : WritePc → Position} {ret : Status → State → State}
    (l : WritePc) (busy : ∀ k, at_ k ≠ .idle)
    (returns : ∀ r u, Did s (writeAccess s b l) u → Acted s (writeAccess s b l) (ret r u)) :
    Acted s (writeAccess s b l) (writeToDevice b arm l at_ ret s) := by
  refine writeToDevice_elim l (fun e => ?p0) (fun e _ => ?free) (fun e _ => ?full) (fun e _ => ?timeout)
    (fun e _ => ?again) (fun e _ => ?armed) (fun e _ => ?unarmed)
  all_goals subst e
  case p0 => exact (did_setDeadline s _).goto (busy _) nofun
  case free => exact (did_readStatus s).goto (busy _) nofun
  case full => exact (did_readStatus s).goto (busy _) nofun
  case timeout => exact returns _ _ (did_nothing s)
  case again => exact (did_nothing s).goto (busy _) nofun
  case armed => exact returns _ _ ((did_ioWrite s _ _).congr (by simp [recordOf]))
  case unarmed => exact returns _ _ (did_ioWrite s _ _)

theorem readFromDevice_acted {at_ : ReadPc → Position} {ret : Status → Byte → State → State} (l : ReadPc)
    (busy : ∀ k, at_ k ≠ .idle)
    (returns : ∀ r b u, Did s (readAccess l) u → Acted s (readAccess l) (ret r b u)) :
    Acted s (readAccess l) (readFromDevice l at_ ret s) := by
  refine readFromDevice_elim l (fun e => ?p0) (fun e _ => ?full) (fun e _ => ?empty) (fun e _ => ?timeout)
    (fun e _ => ?again) (fun e => ?read)
  all_goals subst e
  case p0 => exact (did_setDeadline s _).goto (busy _) nofun
  case full => exact (did_readStatus s).goto (busy _) nofun
  case empty => exact (did_readStatus s).goto (busy _) nofun
  case timeout => exact returns _ _ _ (did_nothing s)
  case again => exact (did_nothing s).goto (busy _) nofun
  case read => exact returns _ _ _ (did_readData s)

theorem cmdWrite_acted {c : Byte} {at_ : CmdPc → Position} {ret : Status → State → State} (l : CmdPc)
    (busy : ∀ k, at_ k ≠ .idle)
    (returns : ∀ r u, Did s (cmdAccess s c l) u → Acted s (cmdAccess s c l) (ret r u)) :
    Acted s (cmdAccess s c l) (cmdWrite c l at_ ret s) := by
  refine cmdWrite_elim l (fun e => ?p0) (fun e _ => ?free) (fun e _ => ?full) (fun e _ => ?timeout)
    (fun e _ => ?again) (fun e => ?write)
  all_goals subst e
  case p0 => exact (did_setDeadline s _).goto (busy _) nofun
  case free => exact (did_readStatus s).goto (busy _) nofun
  case full => exact (did_readStatus s).goto (busy _) nofun
  case timeout => exact returns _ _ (did_nothing s)
  case again => exact (did_nothing s).goto (busy _) nofun
  case write => exact returns _ _ (did_ioWrite s _ _)

theorem flush_acted {at_ : FlushPc → Position} {ret : Status → State → State} (l : FlushPc)
    (busy : ∀ k, at_ k ≠ .idle) (quiet : ∀ u : State, (u.goto (at_ .f1)).byteBeingWritten = none)
    (returns : ∀ r u, Did s (flushAccess l) u → Acted s (flushAccess l) (ret r u)) :
    Acted s (flushAccess l) (flush l at_ ret s) := by
  refine flush_elim l (fun e => ?f0) (fun e _ => ?empty) (fun e _ => ?full) (fun e _ => ?timeout)
    (fun e _ => ?again) (fun e => ?discard)
  all_goals subst e
  case f0 => exact (did_setDeadline s _).goto (busy _) nofun
  case empty => exact returns _ _ (did_readStatus s)
  case full => exact (did_readStatus s).goto (busy _) nofun
  case timeout => exact returns _ _ (did_nothing s)
  case again => exact (did_nothing s).goto (busy _) nofun
  case discard => exact (did_readData s).goto (busy _) fun _ => quiet _

theorem ps2Init_acted {at_ : InitPc → Position} {ret : Status → Word32 → State → State} (l : InitPc)
    (busy : ∀ k, at_ k ≠ .idle)
    (quiet : ∀ k (u : State), initByte k = none → (u.goto (at_ k)).byteBeingWritten = none)
    (returns : ∀ st v u, Did s (initAccess s l) u → Acted s (initAccess s l) (ret st v u)) :
    Acted s (initAccess s l) (ps2Init l at_ ret s) := by
  have ctrl {v : State} (c : CtrlState) (d : Did s (initAccess s l) v) : Did s (initAccess s l) (v.setCtrl c) :=
    d.congr (by simp [recordOf])
  refine ps2Init_elim l (fun e => ?i0) (fun e => ?i1) (fun e => ?i2) (fun k e => ?flush) (fun k e => ?selfCmd)
    (fun k e => ?selfRead) (fun k e => ?portCmd) (fun k e => ?portRead) (fun k e => ?enable)
  all_goals subst e
  case i0 => exact ((did_nothing s).congr (by simp [recordOf])).goto (busy _) nofun
  case i1 => exact (ctrl _ (did_nothing s)).goto (busy _) nofun
  case i2 => exact (ctrl _ (did_nothing s)).goto (busy _) nofun
  case flush =>
    refine flush_acted k (fun _ => busy _) (fun u => quiet _ u rfl) fun r v d => ?_
    split
    · exact returns _ _ _ d
    · exact d.goto (busy _) fun _ => quiet _ _ rfl
  case selfRead =>
    refine readFromDevice_acted k (fun _ => busy _) fun r b v d => ?_
    split_ifs
    · exact returns _ _ _ (ctrl _ d)
    · exact returns _ _ _ (ctrl _ d)
    · exact (ctrl _ d).goto (busy _) fun _ => quiet _ _ rfl
  case portRead =>
    refine readFromDevice_acted k (fun _ => busy _) fun r b v d => ?_
    split_ifs
    · exact returns _ _ _ (ctrl _ d)
    · exact returns _ _ _ (ctrl _ d)
    · exact (ctrl _ d).goto (busy _) fun _ => quiet _ _ rfl
  case enable =>
    refine cmdWrite_acted k (fun _ => busy _) fun r v d => ?_
    split
    · exact returns _ _ _ d
    · exact returns _ _ _ (ctrl _ d)
  all_goals
    refine cmdWrite_acted k (fun _ => busy _) fun r v d => ?_
    split
    · exact returns _ _ _ (ctrl _ d)
    · exact d.goto (busy _) fun _ => quiet _ _ rfl

theorem awaitAction_acted {bytes : List Byte} {rearm : Bool} {at_ : SendPc → Position}
    {ret : Status → Word32 → State → State} (busy : ∀ k, at_ k ≠ .idle) (hp : s.pos ≠ .idle)
    (returns : ∀ st v u, Did s .nothing u → Acted s .nothing (ret st v u)) :
    Acted s .nothing (awaitAction bytes rearm at_ ret s) := by
  have moved {v : State} (p : SendPc) (e : recordOf v = recordOf s) : Acted s .nothing (v.goto (at_ p)) :=
    ((did_nothing s).congr e).goto (busy _) nofun
  have returned {v : State} (st : Status) (x : Word32) (e : recordOf v = recordOf s) : Acted s .nothing (ret st x v) :=
    returns _ _ _ ((did_nothing s).congr e)
  refine awaitAction_elim (fun _ _ => ?expired) (fun _ _ => ?waits) (fun _ _ _ => ?lastRearm) (fun _ _ _ => ?last)
    (fun _ _ => ?more) (fun _ _ => ?exhausted) (fun _ _ => ?retry) (fun _ => ?desync) (fun _ => acted_nothing hp)
  case waits => exact moved _ rfl
  case expired | more | retry | desync => exact moved _ (by simp [recordOf])
  case lastRearm | last | exhausted => exact returned _ _ (by simp [recordOf])

theorem sendCommand_acted {bytes : List Byte} {rearm : Bool} {at_ : SendPc → Position}
    {ret : Status → Word32 → State → State} (l : SendPc) (busy : ∀ k, at_ k ≠ .idle)
    (quiet : ∀ u : State, (u.goto (at_ (.flush .f1))).byteBeingWritten = none) (hp : l = .s1 → s.pos ≠ .idle)
    (returns : ∀ st v u, Did s (sendAccess s bytes l) u → Acted s (sendAccess s bytes l) (ret st v u)) :
    Acted s (sendAccess s bytes l) (sendCommand bytes rearm l at_ ret s) := by
  refine sendCommand_elim l (fun e _ => ?latched) (fun e _ => ?begins) (fun k e => ?write) (fun e => ?await)
    (fun e => ?s2) (fun e => ?s3) (fun k e => ?flush)
  all_goals subst e
  case latched => exact returns _ _ _ (did_nothing s)
  case begins => exact ((did_nothing s).congr (by simp [recordOf])).goto (busy _) nofun
  case write =>
    refine writeToDevice_acted k (fun _ => busy _) fun r v d => ?_
    split
    · exact returns _ _ _ (d.congr (by simp [recordOf]))
    · exact d.goto (busy _) fun hd => absurd hd (writeAccess_ne_data s _ k)
  case await => exact awaitAction_acted busy (hp rfl) returns
  case s2 => exact returns _ _ _ ((did_nothing s).congr (by simp [recordOf]))
  case s3 => exact (did_nothing s).goto (busy _) nofun
  case flush =>
    refine flush_acted k (fun _ => busy _) quiet fun r v d => ?_
    split
    · exact returns _ _ _ (d.congr (by simp [recordOf]))
    · exact returns _ _ _ d

/-! ### The instructions -/

theorem kbdinitAction_acted (l : KbdPc) (hp : l ≠ .init .i0 → s.pos ≠ .idle) :
    Acted s (kbdAccess s l) (kbdinitAction l s) := by
  cases l with
  | init l =>
    rw [kbdinitAction]
    refine ps2Init_acted (at_ := fun l => .kbdinit (.init l)) l (fun _ => nofun) (fun k u hk => hk) fun st v u d => ?_
    split
    · exact d.goto nofun fun _ => rfl
    · exact d.respond _ _
  | reset l =>
    rw [kbdinitAction]
    refine sendCommand_acted (at_ := fun l => .kbdinit (.reset l)) l (fun _ => nofun) (fun _ => rfl)
      (fun _ => hp nofun) fun st v u d => ?_
    split
    · exact d.goto nofun fun _ => rfl
    · exact d.respond _ _
  | enable l =>
    rw [kbdinitAction]
    exact sendCommand_acted (at_ := fun l => .kbdinit (.enable l)) l (fun _ => nofun) (fun _ => rfl)
      (fun _ => hp nofun) fun st v u d => d.respond _ _
  | b1 =>
    have moved (a : AckState) (p : KbdPc) : Acted s .nothing ((s.setAck a).goto (.kbdinit p)) :=
      ((did_nothing s).congr (by simp [recordOf])).goto nofun nofun
    rw [kbdinitAction, batAction]
    split
    · split
      · exact moved _ _
      · exact (did_nothing s).goto nofun nofun
    all_goals split <;> exact moved _ _
  | b2 => exact ((did_nothing s).congr (by simp [recordOf])).respond _ _
  | b3 => exact (did_nothing s).goto nofun nofun
  | flush l =>
    rw [kbdinitAction]
    refine flush_acted (at_ := fun l => .kbdinit (.flush l)) l (fun _ => nofun) (fun _ => rfl) fun r u d => ?_
    split
    · exact (d.congr (by simp [recordOf])).respond _ _
    · exact d.respond _ _

theorem clkinitAction_acted (freq : Word32) (l : ClkPc) : Acted s (clkinitAccess s l) (clkinitAction freq l s) := by
  cases l with
  | c1 =>
    have d : Did s (clkinitAccess s .c1) (clkinitConfigure freq s) := ⟨rfl, rfl, rfl, nofun⟩
    exact d.goto nofun nofun
  | c2 => exact (did_ioWrite s _ _).goto nofun nofun
  | c3 => exact (did_ioWrite s _ _).goto nofun nofun
  | c4 => exact ((did_nothing s).congr (v := { s with tick := 0 }) rfl).respond _ _

theorem sleepAction_acted (ms : Word32) (l : SleepPc) : Acted s .nothing (sleepAction ms l s) := by
  cases l with
  | s0 => exact (did_setDeadline s ms).goto nofun nofun
  | s1 =>
    rw [sleepAction]
    split
    · exact (did_nothing s).respond _ _
    · exact (did_nothing s).goto nofun nofun

theorem scanpopAction_acted : Acted s .nothing (scanpopAction s) := by
  unfold scanpopAction
  split
  case h_1 => exact (did_nothing s).respond _ _
  case h_2 b rest _ => exact ((did_nothing s).congr (v := { s with scanq := rest }) rfl).respond _ _

/-- An instruction stands where the sequencer does, or, while it is idle, at its own first label (log 8). -/
theorem positionFor_own {i : Instr} {p : Position} (ho : p.op = opOf i) (hn : p ≠ .idle)
    (hp : s.pos = p ∨ s.pos = .idle ∧ p = entryOf i) : positionFor i s.pos = some p := by
  rcases hp with hp | ⟨hp, rfl⟩
  · simp [positionFor, hp, hn, ho]
  · simp [positionFor, hp]

/-- Every action of a request: its port access, and then it moves on or responds. -/
theorem exec_request_acted {i : Instr} (hi : i ≠ .advanceTick ∧ i ≠ .kbdByte) (he : exec i s = .next t) :
    ∃ p, positionFor i s.pos = some p ∧ Acted s (accessOf s i p) t := by
  cases i with
  | advanceTick => exact absurd rfl hi.1
  | kbdByte => exact absurd rfl hi.2
  | gettick =>
    obtain ⟨hp, rfl⟩ := exec_gettick_next he
    exact ⟨.gettick, positionFor_own rfl nofun (by simpa [entryOf] using hp), (did_nothing s).respond _ _⟩
  | deadline ms =>
    obtain ⟨hp, rfl⟩ := exec_deadline_next ms he
    exact ⟨.deadline, positionFor_own rfl nofun (by simpa [entryOf] using hp), (did_nothing s).respond _ _⟩
  | expired d =>
    obtain ⟨hp, rfl⟩ := exec_expired_next d he
    exact ⟨.expired, positionFor_own rfl nofun (by simpa [entryOf] using hp), (did_nothing s).respond _ _⟩
  | scanpop =>
    obtain ⟨hp, rfl⟩ := exec_scanpop_next he
    exact ⟨.scanpop, positionFor_own rfl nofun (by simpa [entryOf] using hp), scanpopAction_acted⟩
  | clkinit freq =>
    obtain ⟨l, hp, rfl⟩ := exec_clkinit_next freq he
    exact ⟨.clkinit l, positionFor_own rfl nofun (by simpa [entryOf] using hp),
      clkinitAction_acted freq l⟩
  | sleep ms =>
    obtain ⟨l, hp, rfl⟩ := exec_sleep_next ms he
    exact ⟨.sleep l, positionFor_own rfl nofun (by simpa [entryOf] using hp),
      sleepAction_acted ms l⟩
  | ps2wr byte =>
    obtain ⟨l, hp, rfl⟩ := exec_ps2wr_next byte he
    exact ⟨.ps2wr l, positionFor_own rfl nofun (by simpa [entryOf] using hp),
      writeToDevice_acted (at_ := .ps2wr) l (fun _ => nofun) fun _ _ d => d.respond _ _⟩
  | ps2rd =>
    obtain ⟨l, hp, rfl⟩ := exec_ps2rd_next he
    exact ⟨.ps2rd l, positionFor_own rfl nofun (by simpa [entryOf] using hp),
      readFromDevice_acted (at_ := .ps2rd) l (fun _ => nofun) fun _ _ _ d => d.respond _ _⟩
  | ps2flush =>
    obtain ⟨l, hp, rfl⟩ := exec_ps2flush_next he
    exact ⟨.ps2flush l, positionFor_own rfl nofun (by simpa [entryOf] using hp),
      flush_acted (at_ := .ps2flush) l (fun _ => nofun) (fun _ => rfl) fun _ _ d => d.respond _ _⟩
  | ps2cmd cmd =>
    obtain ⟨l, hp, rfl⟩ := exec_ps2cmd_next cmd he
    exact ⟨.ps2cmd l, positionFor_own rfl nofun (by simpa [entryOf] using hp),
      cmdWrite_acted (at_ := .ps2cmd) l (fun _ => nofun) fun _ _ d => d.respond _ _⟩
  | ps2init =>
    obtain ⟨l, hp, rfl⟩ := exec_ps2init_next he
    exact ⟨.ps2init l, positionFor_own rfl nofun (by simpa [entryOf] using hp),
      ps2Init_acted (at_ := .ps2init) l (fun _ => nofun) (fun _ _ hk => hk) fun _ _ _ d => d.respond _ _⟩
  | sendcmd nargs arg1 arg0 opcode =>
    obtain ⟨l, hp, rfl⟩ := exec_sendcmd_next nargs arg1 arg0 opcode he
    have busy (e : l = .s1) : s.pos ≠ .idle := by
      rcases hp with hp | ⟨-, h0⟩
      · simp [hp]
      · simp [h0] at e
    exact ⟨.sendcmd l, positionFor_own rfl nofun (by simpa [entryOf] using hp),
      sendCommand_acted (at_ := .sendcmd) l (fun _ => nofun) (fun _ => rfl) busy fun _ _ _ d => d.respond _ _⟩
  | kbdinit =>
    obtain ⟨l, hp, rfl⟩ := exec_kbdinit_next he
    have busy (e : l ≠ .init .i0) : s.pos ≠ .idle := by
      rcases hp with hp | ⟨-, h0⟩
      · simp [hp]
      · exact absurd h0 e
    exact ⟨.kbdinit l, positionFor_own rfl nofun (by simpa [entryOf] using hp), kbdinitAction_acted l busy⟩

end Sys2Proof.Safety
end

section
/-! SUPPORT. The fields of a state after a step: events, acceptance, and where an instruction runs. -/

namespace Sys2Proof.Safety

open Sys2Proof.Machine

variable {s t : State} {i : Instr} {w : Word40}

/-! ### Where an instruction runs -/

theorem op_of_positionFor {p q : Position} (h : positionFor i p = some q) : q.op = opOf i := by
  unfold positionFor at h
  split_ifs at h with h0 ho
  · cases h
    cases i <;> rfl
  · cases h
    exact ho

/-- Wherever an instruction has a position, it runs. -/
theorem exec_completes {p : Position} (h : positionFor i s.pos = some p) : ∃ t, exec i s = .next t := by
  have ho := op_of_positionFor h
  cases i
  case advanceTick => exact ⟨_, exec_advanceTick⟩
  case kbdByte => exact ⟨_, exec_kbdByte⟩
  all_goals
    cases p <;> cases ho
    simp [exec, execClkinit, execGettick, execDeadline, execExpired, execSleep, execPs2wr, execPs2rd, execPs2flush,
      execPs2cmd, execPs2init, execSendcmd, execScanpop, execKbdinit, h]

/-- A request instruction without a position is refused (log 13). -/
theorem exec_refused (hi : i ≠ .advanceTick ∧ i ≠ .kbdByte) (h : positionFor i s.pos = none) :
    exec i s = .refused .operationInProgress := by
  cases i
  case advanceTick => exact absurd rfl hi.1
  case kbdByte => exact absurd rfl hi.2
  all_goals
    simp [exec, execClkinit, execGettick, execDeadline, execExpired, execSleep, execPs2wr, execPs2rd, execPs2flush,
      execPs2cmd, execPs2init, execSendcmd, execScanpop, execKbdinit, h]

theorem positionFor_isSome (h : s.pos = .idle ∨ s.pos.op = opOf i) : ∃ p, positionFor i s.pos = some p := by
  unfold positionFor
  split_ifs with h0 ho
  · exact ⟨_, rfl⟩
  · exact ⟨_, rfl⟩
  · exact absurd h (by simp [h0, ho])

/-! ### Events -/

/-- What an event leaves of the state and adds to the history (R8, R91, R140). -/
theorem exec_event (hi : i = .advanceTick ∨ i = .kbdByte) (he : exec i s = .next t) :
    t.pos = s.pos ∧ t.par = s.par ∧ t.hostq = s.hostq ∧
      ((i = .advanceTick ∧ t.trace = [.eoi s.par.irqTimer, .tick] ++ s.trace) ∨
        (i = .kbdByte ∧ ∃ b, t.trace = [.eoi s.par.irqKbd, .kbd b] ++ s.trace)) := by
  rcases hi with rfl | rfl
  · rw [exec_advanceTick, tickEvent_effect] at he
    cases he
    exact ⟨rfl, rfl, rfl, .inl ⟨rfl, rfl⟩⟩
  · rw [exec_kbdByte, kbdEvent_effect] at he
    cases he
    exact ⟨rfl, rfl, rfl, .inr ⟨rfl, _, rfl⟩⟩

theorem inv_exec_event (h : Inv s) (hi : i = .advanceTick ∨ i = .kbdByte) (he : exec i s = .next t) : Inv t := by
  rcases hi with rfl | rfl <;> cases he
  · exact inv_tickEvent h
  · exact inv_kbdEvent h

/-! ### Acceptance -/

theorem accept_legal (h : decodeRequest w = .ok i) :
    s.accept w = { s with req := w, pos := entryOf i, trace := .req w :: s.trace } := by
  simp only [State.accept, h]
  rfl

theorem accept_illegal {e : Reject} (h : decodeRequest w = .error e) :
    s.accept w = ({ s with req := w }.record (.req w)).respond .illegalOp (operandField w) := by
  simp only [State.accept, h]

theorem entryOf_request (hi : i ≠ .advanceTick ∧ i ≠ .kbdByte) : entryOf i ≠ .idle := by
  cases i
  case advanceTick => exact absurd rfl hi.1
  case kbdByte => exact absurd rfl hi.2
  all_goals nofun

/-- An idle block may stand at the first label of the request in `REQ`. -/
theorem mayStand_entry (hd : decodeRequest s.req = .ok i) (rest : s.ackState = .idle) : MayStand s (entryOf i) where
  slot := by cases i <;> exact rest
  ctrl := by cases i <;> exact trivial
  usable := by cases i <;> exact trivial
  request _ := ⟨i, hd, by cases i <;> rfl⟩
  command := by cases i <;> nofun

theorem inv_accept (h : Inv s) (hp : s.pos = .idle) (w : Word40) : Inv (s.accept w) := by
  have rest : s.ackState = .idle := by
    have := h.slot
    rwa [hp] at this
  cases hd : decodeRequest w with
  | ok i =>
    rw [accept_legal hd]
    have m := mayStand_entry (s := { s with req := w }) hd rest
    exact inv_of_mayStand (h.registers.congr rfl) (m.congr rfl)
  | error e =>
    rw [accept_illegal hd]
    exact inv_respond (h.registers.congr (by simp [registersOf])) (by simpa using rest) _ _

theorem accept_par (s : State) (w : Word40) : (s.accept w).par = s.par := by
  cases hd : decodeRequest w with
  | ok i => rw [accept_legal hd]
  | error e => rw [accept_illegal hd]; rfl

end Sys2Proof.Safety
end

section
/-! The obligations of the family: the invariant. -/

namespace Sys2Proof.Scope

open Sys2Proof.Machine Sys2Proof.Safety

/-- Settles O56: `State.reset` is the reset state of parameter set A, which is in the ranges of R6. -/
theorem resetMeetsInvariant : Obligations.ResetMeetsInvariant :=
  ⟨inv_resetOf (by decide), fun _ hp => inv_resetOf hp⟩

/-- No step changes the parameters of R6. -/
theorem step_par {s t : State} (h : step s = .next t) : t.par = s.par := by
  obtain ⟨rest, -, rfl⟩ | ⟨w, rest, e, inputs, draws, -, he, hx⟩ | ⟨-, -, -, rfl⟩ | ⟨w, rest, -, -, -, rfl⟩ |
    ⟨i, -, -, hd, hx⟩ := step_next h
  · rfl
  · obtain ⟨-, hpar, -⟩ := exec_event (he.imp And.left And.left) hx
    exact hpar
  · rfl
  · exact accept_par _ w
  · obtain ⟨p, -, acted⟩ := exec_request_acted (decodeRequest_ok_isRequest hd) hx
    exact acted.par

theorem step_keeps_inv {s t : State} (hi : Inv s) (h : step s = .next t) : Inv t := by
  obtain ⟨rest, -, rfl⟩ | ⟨w, rest, e, inputs, draws, -, he, hx⟩ | ⟨-, -, -, rfl⟩ | ⟨w, rest, -, hp, -, rfl⟩ |
    ⟨i, -, hp, hd, hx⟩ := step_next h
  · exact inv_resetInput hi.params
  · exact inv_exec_event (hi.outside s.hostq inputs draws) (he.imp And.left And.left) hx
  · exact hi.outside s.hostq s.inputs.tail s.draws
  · exact inv_accept (hi.outside rest s.inputs.tail s.draws) hp w
  · exact inv_exec_request (hi.outside s.hostq s.inputs.tail s.draws) hp hd hx

/-- Settles O57: reset, an event, an acceptance and an action of the operation in progress each keep it. -/
theorem stepKeepsInvariant : Obligations.StepKeepsInvariant :=
  ⟨fun _ _ hi h => step_keeps_inv hi h, fun _ _ h => step_par h⟩

/-- Settles O58: an instruction runs exactly where it has a position. -/
theorem everyActionCompletes : Obligations.EveryActionCompletes := by
  refine fun i s => ⟨fun h => ?_, fun ht hk hp ho => exec_refused ⟨ht, hk⟩ (by simp [positionFor, hp, ho])⟩
  rcases h with rfl | rfl | h
  · exact ⟨_, exec_advanceTick⟩
  · exact ⟨_, exec_kbdByte⟩
  · obtain ⟨p, hp⟩ := positionFor_isSome h
    exact exec_completes hp

end Sys2Proof.Scope
end

section
/-! The obligations of the family: steps, requests and responses. -/

namespace Sys2Proof.Scope

open Sys2Proof.Machine Sys2Proof.Safety

/-- Settles O5: with no event due the turn is the sequencer's. -/
theorem stepRunsDecodedRequest : Obligations.StepRunsDecodedRequest := by
  intro s i hp hq hd
  have busy : (sampled s).pos ≠ .idle := hp
  have request : decodeRequest (sampled s).req = .ok i := hd
  simp only [step, turn_quiet hq, State.sequencerTurn, if_neg busy, request]

/-- Settles O6: of the four event words only 1 and 2 stand for one event. -/
theorem stepRunsDecodedEvent : Obligations.StepRunsDecodedEvent := by
  intro s w rest i hi hd
  rcases eventWord_cases w with rfl | rfl | rfl | rfl
  · cases hd
  · cases hd
    simp [step, State.turn, hi, State.eventTurn, eventsOf]
  · cases hd
    simp [step, State.turn, hi, State.eventTurn, eventsOf]
  · cases hd

/-- A gap in which an event is pulsed: the step runs one of them. -/
theorem step_event {s : State} {w : EventWord} {rest : List Input} (hi : s.inputs = .ev w :: rest) (hw : w ≠ 0) :
    ∃ e inputs draws, (e = .advanceTick ∨ e = .kbdByte) ∧
      step s = exec e { s with inputs := inputs, draws := draws } := by
  rcases eventWord_cases w with rfl | rfl | rfl | rfl
  · exact absurd rfl hw
  · exact ⟨_, rest, s.draws, .inl rfl, stepRunsDecodedEvent s 1 rest _ hi rfl⟩
  · exact ⟨_, rest, s.draws, .inr rfl, stepRunsDecodedEvent s 2 rest _ hi rfl⟩
  · cases hk : Config.kbdFirst s.draws with
    | true =>
      refine ⟨.kbdByte, .ev 1 :: rest, s.draws + 1, .inr rfl, ?_⟩
      simp [step, State.turn, hi, State.eventTurn, eventsOf, State.bothEvents, hk]
    | false =>
      refine ⟨.advanceTick, .ev 2 :: rest, s.draws + 1, .inl rfl, ?_⟩
      simp [step, State.turn, hi, State.eventTurn, eventsOf, State.bothEvents, hk]

/-- The idle block with no event due and no request waits. -/
theorem step_waits {s : State} (hp : s.pos = .idle) (hq : Quiet s) (hh : s.hostq = []) :
    step s = .next (sampled s) := by
  have idle : (sampled s).pos = .idle := hp
  have none : (sampled s).hostq = [] := hh
  simp only [step, turn_quiet hq, State.sequencerTurn, if_pos idle, none]

/-- The idle block with no event due accepts the next request. -/
theorem step_accepts {s : State} {w : Word40} {rest : List Word40} (hp : s.pos = .idle) (hq : Quiet s)
    (hh : s.hostq = w :: rest) : step s = .next ({ sampled s with hostq := rest }.accept w) := by
  have idle : (sampled s).pos = .idle := hp
  have first : (sampled s).hostq = w :: rest := hh
  simp only [step, turn_quiet hq, State.sequencerTurn, if_pos idle, first]

/-- Settles O59: by the invariant the operation in progress is the one `REQ` holds, so its action runs. -/
theorem blockNeverStops : Obligations.BlockNeverStops := by
  intro s hinv
  by_cases hq : Quiet s
  · by_cases hp : s.pos = .idle
    · cases hh : s.hostq with
      | nil => exact ⟨_, step_waits hp hq hh⟩
      | cons w rest => exact ⟨_, step_accepts hp hq hh⟩
    · obtain ⟨i, hd, ho⟩ := hinv.request hp
      obtain ⟨p, hpos⟩ := positionFor_isSome (s := sampled s) (.inr ho.symm)
      rw [stepRunsDecodedRequest s i hp hq hd]
      exact exec_completes hpos
  · cases hi : s.inputs with
    | nil => exact absurd (.inl hi) hq
    | cons x rest =>
      cases x with
      | reset => exact ⟨{ s with inputs := rest }.resetInput, by simp only [step, State.turn, hi]⟩
      | ev w =>
        have hw : w ≠ 0 := by
          rintro rfl
          exact hq (.inr (by simp [hi]))
        obtain ⟨e, inputs, draws, he, hs⟩ := step_event hi hw
        rw [hs]
        rcases he with rfl | rfl
        · exact ⟨_, exec_advanceTick⟩
        · exact ⟨_, exec_kbdByte⟩

/-! ### Requests and responses -/

/-- An action adds its access to the history, and the response exactly when it ends the operation. -/
theorem acted_entries {s t : State} {a : Access} (h : Acted s a t) :
    ∃ rs, t.trace = rs ++ a.entries s ++ s.trace ∧
      ((rs = [] ∧ t.pos ≠ .idle) ∨ ((∃ st v, rs = [.rsp st v]) ∧ t.pos = .idle)) := by
  obtain ⟨hp, ht⟩ | ⟨hp, st, v, ht⟩ := h.history
  · exact ⟨[], ht, .inl ⟨rfl, hp⟩⟩
  · exact ⟨[.rsp st v], ht, .inr ⟨⟨st, v, rfl⟩, hp⟩⟩

/-- An access is no request, no response, and at most one port access. -/
theorem entries_counts (s : State) (a : Access) :
    (a.entries s).countP isRequest = 0 ∧ (a.entries s).countP isResponse = 0 ∧
      (a.entries s).countP isPortAccess ≤ 1 := by
  cases a <;> simp [Access.entries, isRequest, isResponse, isPortAccess]

/-- Settles O8: only an idle block accepts. -/
theorem busyBlockAcceptsNoRequest : Obligations.BusyBlockAcceptsNoRequest := by
  intro s t busy h
  obtain ⟨rest, -, rfl⟩ | ⟨w, rest, e, inputs, draws, -, he, hx⟩ | ⟨-, hp, -, -⟩ | ⟨w, rest, -, hp, -, -⟩ |
    ⟨i, -, -, hd, hx⟩ := step_next h
  · exact ⟨rfl, [], rfl, rfl⟩
  · obtain ⟨-, -, hostq, ⟨-, ht⟩ | ⟨-, b, ht⟩⟩ := exec_event (he.imp And.left And.left) hx
    · exact ⟨hostq, _, ht, rfl⟩
    · exact ⟨hostq, _, ht, rfl⟩
  · exact absurd hp busy
  · exact absurd hp busy
  · obtain ⟨p, -, acted⟩ := exec_request_acted (decodeRequest_ok_isRequest hd) hx
    obtain ⟨noRequest, -, -⟩ := entries_counts (sampled s) (accessOf (sampled s) i p)
    obtain ⟨rs, ht, ⟨rfl, -⟩ | ⟨⟨st, v, rfl⟩, -⟩⟩ := acted_entries acted
    · exact ⟨acted.hostq, _, ht, by simpa using noRequest⟩
    · exact ⟨acted.hostq, _, ht, by simpa [isRequest] using noRequest⟩

/-- Settles O55: an acceptance answers or makes the block busy; an action answers exactly when it makes it idle. -/
theorem oneResponsePerRequest : Obligations.OneResponsePerRequest := by
  intro s t h noReset
  obtain ⟨rest, hi, rfl⟩ | ⟨w, rest, e, inputs, draws, -, he, hx⟩ | ⟨-, hp, -, rfl⟩ | ⟨w, rest, -, hp, -, rfl⟩ |
    ⟨i, -, hp, hd, hx⟩ := step_next h
  · exact absurd (by simp [hi]) noReset
  · obtain ⟨hpos, -, -, ⟨-, ht⟩ | ⟨-, b, ht⟩⟩ := exec_event (he.imp And.left And.left) hx
    · exact ⟨_, ht, by simp [isRequest, isResponse, inProgress, hpos]⟩
    · exact ⟨_, ht, by simp [isRequest, isResponse, inProgress, hpos]⟩
  · exact ⟨[], rfl, rfl⟩
  · cases hd : decodeRequest w with
    | ok i =>
      have busy := entryOf_request (decodeRequest_ok_isRequest hd)
      rw [accept_legal hd]
      exact ⟨[.req w], rfl, by simp [isRequest, isResponse, inProgress, hp, busy]⟩
    | error e =>
      rw [accept_illegal hd]
      exact ⟨[.rsp .illegalOp (operandField w), .req w], rfl,
        by simp [List.countP_cons, isRequest, isResponse, inProgress, hp]⟩
  · obtain ⟨p, -, acted⟩ := exec_request_acted (decodeRequest_ok_isRequest hd) hx
    obtain ⟨noRequest, noResponse, -⟩ := entries_counts (sampled s) (accessOf (sampled s) i p)
    obtain ⟨rs, ht, ⟨rfl, hpos⟩ | ⟨⟨st, v, rfl⟩, hpos⟩⟩ := acted_entries acted
    · exact ⟨_, ht, by simp [noRequest, noResponse, inProgress, hp, hpos]⟩
    · exact ⟨_, ht, by
        simp [List.countP_cons, noRequest, noResponse, isRequest, isResponse, inProgress, hp, hpos]⟩

end Sys2Proof.Scope
end

section
/-! SUPPORT. A request word that the decoder rejects is illegal by the numbers of R76, and what it accepts is
well formed. -/

namespace Sys2Proof.Safety

variable {w : Word40} {x : Word32} {i : Instr} {e : Reject}

theorem opNumber_eq (w : Word40) : opNumber w = (opField w).toNat := by
  rw [opNumber, opField, toNat_field]
  omega

theorem operandNumber_eq (w : Word40) : operandNumber w = (operandField w).toNat := by
  rw [operandNumber, operandField, toNat_field]
  omega

/-- A field of bits of a word, zero or not, by the word's number. -/
theorem field_eq_iff {lo len v : Nat} (hv : v < 2 ^ len) :
    x.extractLsb' lo len = BitVec.ofNat len v ↔ x.toNat / 2 ^ lo % 2 ^ len = v := by
  rw [← BitVec.toNat_inj, toNat_field, BitVec.toNat_ofNat, Nat.mod_eq_of_lt hv]

theorem decodeNone_error (h : decodeNone x i = .error e) : x.toNat ≠ 0 := by
  unfold decodeNone at h
  split_ifs at h with hx
  exact fun h0 => hx (BitVec.eq_of_toNat_eq h0)

theorem decodePs2wr_error (h : decodePs2wr x = .error e) : x.toNat / 2 ^ 8 ≠ 0 := by
  unfold decodePs2wr at h
  split_ifs at h with hx
  have := mt (field_eq_iff (x := x) (lo := 8) (len := 24) (v := 0) (by decide)).2 hx
  omega

theorem decodePs2cmd_error (h : decodePs2cmd x = .error e) :
    x.toNat / 2 ^ 8 ≠ 0 ∨ x.toNat % 2 ^ 8 ∉ [0xAA, 0xAB, 0xA9, 0xAE, 0xAD] := by
  unfold decodePs2cmd at h
  split_ifs at h with hx hc
  · right
    simpa [controllerCommands, ← BitVec.toNat_inj, toNat_field] using hc
  · left
    have := mt (field_eq_iff (x := x) (lo := 8) (len := 24) (v := 0) (by decide)).2 hx
    omega

theorem decodeSendcmd_error (h : decodeSendcmd x = .error e) :
    x.toNat / 2 ^ 27 ≠ 0 ∨ x.toNat / 2 ^ 26 % 2 = 1 ∨ x.toNat / 2 ^ 24 % 4 = 3 := by
  unfold decodeSendcmd at h
  split_ifs at h with hz hdev hn
  · exact .inr (.inr ((field_eq_iff (v := 3) (by decide)).1 hn))
  · have := mt (field_eq_iff (x := x) (lo := 26) (len := 1) (v := 0) (by decide)).2 hdev
    omega
  · have := mt (field_eq_iff (x := x) (lo := 27) (len := 5) (v := 0) (by decide)).2 hz
    omega

/-- The word of a rejected request is in one of the cases of R76, told by its operation number. -/
theorem illegalRequest_of_error (h : decodeRequest w = .error e) : IllegalRequest w := by
  rw [IllegalRequest, opNumber_eq, operandNumber_eq]
  rw [decodeRequest] at h
  generalize opField w = op at h ⊢
  generalize operandField w = x at h ⊢
  simp only [decodeOp, ite_eq_iff, reduceCtorEq, and_false, false_or] at h
  obtain ⟨n1, ⟨rfl, h⟩ | ⟨n2, n3, n4, n5, ⟨rfl, h⟩ | ⟨n6, ⟨rfl, h⟩ | ⟨n7, ⟨rfl, h⟩ | ⟨n8, ⟨rfl, h⟩ | ⟨n9, ⟨rfl, h⟩ |
    ⟨n10, ⟨rfl, h⟩ | ⟨n11, ⟨rfl, h⟩ | ⟨n12, ⟨rfl, h⟩ | ⟨n13, -⟩⟩⟩⟩⟩⟩⟩⟩⟩⟩ := h
  · exact .inr (.inl ⟨by decide, decodeNone_error h⟩)
  · exact .inr (.inr (.inl ⟨by decide, decodePs2wr_error h⟩))
  · exact .inr (.inl ⟨by decide, decodeNone_error h⟩)
  · exact .inr (.inl ⟨by decide, decodeNone_error h⟩)
  · rcases decodePs2cmd_error h with hx | hx
    · exact .inr (.inr (.inl ⟨by decide, hx⟩))
    · exact .inr (.inr (.inr (.inr ⟨by decide, hx⟩)))
  · exact .inr (.inl ⟨by decide, decodeNone_error h⟩)
  · exact .inr (.inr (.inr (.inl ⟨by decide, decodeSendcmd_error h⟩)))
  · exact .inr (.inl ⟨by decide, decodeNone_error h⟩)
  · exact .inr (.inl ⟨by decide, decodeNone_error h⟩)
  · have ne {k : Byte} (h : op ≠ k) : op.toNat ≠ k.toNat := mt BitVec.eq_of_toNat_eq h
    exact .inl (by simpa using ⟨ne n1, ne n2, ne n3, ne n4, ne n5, ne n6, ne n7, ne n8, ne n9, ne n10, ne n11,
      ne n12, ne n13⟩)

/-- The decoder checks the operand conditions of `PS2CMD` and `SENDCMD`; the others have none. -/
theorem wellFormed_of_decodeRequest (h : decodeRequest w = .ok i) : i.WellFormed := by
  rw [decodeRequest] at h
  generalize opField w = op at h
  generalize operandField w = x at h
  simp only [decodeOp, decodeNone, decodePs2wr, decodePs2cmd, decodeSendcmd, ite_eq_iff, Except.ok.injEq,
    reduceCtorEq, and_false, or_false] at h
  obtain ⟨-, rfl⟩ | ⟨-, ⟨-, -, rfl⟩ | ⟨-, ⟨-, rfl⟩ | ⟨-, ⟨-, rfl⟩ | ⟨-, ⟨-, rfl⟩ | ⟨-, ⟨-, -, rfl⟩ | ⟨-, ⟨-, -, rfl⟩ |
    ⟨-, ⟨-, -, rfl⟩ | ⟨-, ⟨-, -, inSet, rfl⟩ | ⟨-, ⟨-, -, rfl⟩ | ⟨-, ⟨-, -, -, ⟨-, h⟩ | ⟨few, rfl⟩⟩ |
    ⟨-, ⟨-, -, rfl⟩ | ⟨-, -, -, rfl⟩⟩⟩⟩⟩⟩⟩⟩⟩⟩⟩⟩ := h
  case inr.inr.inr.inr.inr.inr.inr.inr.inl => exact inSet
  case inr.inr.inr.inr.inr.inr.inr.inr.inr.inr.inl.inr => simpa [Instr.WellFormed, Instr.wellFormed] using few
  all_goals trivial
end Sys2Proof.Safety
end

section
/-! The obligations of the family: acceptance. -/

namespace Sys2Proof.Scope

open Sys2Proof.Machine Sys2Proof.Safety

/-- Settles O7: a request that is not illegal by R76 decodes, and acceptance is the whole step. -/
theorem legalRequestAccepted : Obligations.LegalRequestAccepted := by
  refine ⟨fun s hp hq hh => step_waits hp hq hh, fun s w rest hp hq hh legal => ?_⟩
  cases hd : decodeRequest w with
  | error e => exact absurd (illegalRequest_of_error hd) legal
  | ok i =>
    refine ⟨i, hd, wellFormed_of_decodeRequest hd, ?_⟩
    rw [step_accepts hp hq hh, accept_legal hd]
    rfl

end Sys2Proof.Scope
end

section
/-! SUPPORT. Which port accesses the labels make: to show `P` of every entry, show it of the entry of each access. -/

namespace Sys2Proof.Safety

open Sys2Proof.Machine

section
variable {s : State} {P : TraceEvent → Prop}

theorem pollAccess_entries (status : ∀ x, P (.ioR s.par.portPs2StCmd x)) (l : PollPc) :
    ∀ e ∈ (pollAccess l).entries s, P e := by
  cases l <;> simp [pollAccess, Access.entries, status]

theorem writeAccess_entries {b : Byte} (l : WritePc) (status : ∀ x, P (.ioR s.par.portPs2StCmd x))
    (write : l = .w1 → P (.ioW s.par.portPs2Data b)) : ∀ e ∈ (writeAccess s b l).entries s, P e := by
  cases l with
  | poll l => exact pollAccess_entries status l
  | w1 => simpa [writeAccess, Access.entries] using write

theorem readAccess_entries (l : ReadPc) (status : ∀ x, P (.ioR s.par.portPs2StCmd x))
    (data : ∀ x, P (.ioR s.par.portPs2Data x)) : ∀ e ∈ (readAccess l).entries s, P e := by
  cases l with
  | poll l => exact pollAccess_entries status l
  | r1 => simp [readAccess, Access.entries, data]

theorem cmdAccess_entries {c : Byte} (l : CmdPc) (status : ∀ x, P (.ioR s.par.portPs2StCmd x))
    (write : l = .k1 → P (.ioW s.par.portPs2StCmd c)) : ∀ e ∈ (cmdAccess s c l).entries s, P e := by
  cases l with
  | poll l => exact pollAccess_entries status l
  | k1 => simpa [cmdAccess, Access.entries] using write

theorem flushAccess_entries (l : FlushPc) (status : ∀ x, P (.ioR s.par.portPs2StCmd x))
    (data : ∀ x, P (.ioR s.par.portPs2Data x)) : ∀ e ∈ (flushAccess l).entries s, P e := by
  cases l <;> simp [flushAccess, Access.entries, status, data]

theorem initAccess_entries (l : InitPc) (status : ∀ x, P (.ioR s.par.portPs2StCmd x))
    (data : ∀ x, P (.ioR s.par.portPs2Data x))
    (write : ∀ c, initByte l = some c → (c = 0xAA ∨ c = 0xAB ∨ c = 0xAE) → P (.ioW s.par.portPs2StCmd c)) :
    ∀ e ∈ (initAccess s l).entries s, P e := by
  cases l with
  | flush l => exact flushAccess_entries l status data
  | selfCmd l => exact cmdAccess_entries l status fun hl => write _ (by rw [hl]; rfl) (by decide)
  | portCmd l => exact cmdAccess_entries l status fun hl => write _ (by rw [hl]; rfl) (by decide)
  | enable l => exact cmdAccess_entries l status fun hl => write _ (by rw [hl]; rfl) (by decide)
  | selfRead l => exact readAccess_entries l status data
  | portRead l => exact readAccess_entries l status data
  | _ => exact fun _ he => absurd he List.not_mem_nil

theorem sendAccess_entries {bytes : List Byte} (l : SendPc) (status : ∀ x, P (.ioR s.par.portPs2StCmd x))
    (data : ∀ x, P (.ioR s.par.portPs2Data x))
    (write : l = .write .w1 → P (.ioW s.par.portPs2Data (bytes.getD s.idx 0))) :
    ∀ e ∈ (sendAccess s bytes l).entries s, P e := by
  cases l with
  | write l => exact writeAccess_entries l status fun hl => write (by rw [hl])
  | flush l => exact flushAccess_entries l status data
  | _ => exact fun _ he => absurd he List.not_mem_nil

theorem kbdAccess_entries (l : KbdPc) (status : ∀ x, P (.ioR s.par.portPs2StCmd x))
    (data : ∀ x, P (.ioR s.par.portPs2Data x))
    (init : ∀ k c, l = .init k → initByte k = some c → (c = 0xAA ∨ c = 0xAB ∨ c = 0xAE) →
      P (.ioW s.par.portPs2StCmd c))
    (reset : l = .reset (.write .w1) → P (.ioW s.par.portPs2Data ([0xFF].getD s.idx 0)))
    (enable : l = .enable (.write .w1) → P (.ioW s.par.portPs2Data ([0xF4].getD s.idx 0))) :
    ∀ e ∈ (kbdAccess s l).entries s, P e := by
  cases l with
  | init l => exact initAccess_entries l status data fun c => init l c rfl
  | reset l => exact sendAccess_entries l status data fun hl => reset (by rw [hl])
  | enable l => exact sendAccess_entries l status data fun hl => enable (by rw [hl])
  | flush l => exact flushAccess_entries l status data
  | _ => exact fun _ he => absurd he List.not_mem_nil

theorem clkinitAccess_entries (l : ClkPc) (control : P (.ioW s.par.portPitCtrl s.par.pitCw))
    (divisor : ∀ b, P (.ioW s.par.portPitCh0 b)) : ∀ e ∈ (clkinitAccess s l).entries s, P e := by
  cases l <;> simp [clkinitAccess, Access.entries, control, divisor]

end

variable {s t : State} {i : Instr} {p : Position}

/-- Every access of every action is one of the tables of R51 and R82. -/
theorem accessOf_permitted (s : State) (i : Instr) (p : Position) :
    ∀ e ∈ (accessOf s i p).entries s, PermittedAccess s.par i e := by
  unfold accessOf
  split
  case h_1 l => exact clkinitAccess_entries l (.inl ⟨rfl, rfl⟩) fun _ => .inr rfl
  case h_2 l => exact writeAccess_entries l (fun _ => rfl) fun _ => ⟨rfl, rfl⟩
  case h_3 l => exact readAccess_entries l (fun _ => .inl rfl) fun _ => .inr rfl
  case h_4 l => exact flushAccess_entries l (fun _ => .inl rfl) fun _ => .inr rfl
  case h_5 l => exact cmdAccess_entries l (fun _ => rfl) fun _ => ⟨rfl, rfl⟩
  case h_6 l => exact initAccess_entries l (fun _ => .inl rfl) (fun _ => .inr rfl) fun _ _ hc => ⟨rfl, hc⟩
  case h_7 l => exact sendAccess_entries l (fun _ => .inl rfl) (fun _ => .inr rfl) fun _ => rfl
  case h_8 l =>
    exact kbdAccess_entries l (fun _ => .inl rfl) (fun _ => .inr rfl) (fun _ _ _ _ hc => .inl ⟨rfl, hc⟩)
      (fun _ => .inr rfl) fun _ => .inr rfl
  case h_9 => exact fun _ he => absurd he List.not_mem_nil

/-! ### The bytes written, in the states of a run -/

/-- An action past the first label of its operation stands where the sequencer does. -/
theorem pos_of_positionFor (h : positionFor i s.pos = some p) (hp : p ≠ entryOf i) : s.pos = p := by
  unfold positionFor at h
  split_ifs at h
  · exact absurd (Option.some.inj h).symm hp
  · exact Option.some.inj h

/-- The byte at the index `IDX` of the command being sent, where it is written. -/
theorem Inv.idx_lt (h : Inv s) {bytes : List Byte} (hs : sendLabel s.pos = some (.write .w1))
    (length : commandLength s = bytes.length) : s.idx < bytes.length :=
  length ▸ (h.command _ hs nofun).1

/-- The commands of `KBDINIT` are one byte long. -/
theorem Inv.kbdinit_idx (h : Inv s) {l : KbdPc} (at_ : s.pos = .kbdinit l)
    (hs : sendLabel (.kbdinit l) = some (.write .w1)) : s.idx = 0 := by
  have one : commandLength s = 1 := by simp [commandLength, at_]
  exact Nat.lt_one_iff.1 (one ▸ (h.command (.write .w1) (at_ ▸ hs) nofun).1)

/-- What an entry says of `CUR`: a write to either port of the 8042 writes the byte `CUR` holds (R28, log 14). -/
def WritesCur (s : State) : TraceEvent → Prop
  | .ioW q b => q = s.par.portPs2Data ∨ q = s.par.portPs2StCmd → s.byteBeingWritten = some b
  | .req _ | .rsp _ _ | .ioR _ _ | .tick | .kbd _ | .eoi _ => True

theorem accessOf_writesCur (h : Inv s) (hd : decodeRequest s.req = .ok i) (hp : positionFor i s.pos = some p) :
    ∀ e ∈ (accessOf s i p).entries s, WritesCur s e := by
  obtain ⟨-, -, -, -, ch0Data, ch0StCmd, ctrlData, ctrlStCmd, -⟩ := h.params
  have status (x : Byte) : WritesCur s (.ioR s.par.portPs2StCmd x) := trivial
  have data (x : Byte) : WritesCur s (.ioR s.par.portPs2Data x) := trivial
  unfold accessOf
  split
  case h_1 l =>
    refine clkinitAccess_entries l (fun hq => ?_) fun _ hq => ?_
    · exact absurd hq (by simp [ctrlData, ctrlStCmd])
    · exact absurd hq (by simp [ch0Data, ch0StCmd])
  case h_2 byte l =>
    refine writeAccess_entries l status fun hl _ => ?_
    have at_ := pos_of_positionFor hp (by simp [entryOf, hl])
    simp [State.byteBeingWritten, at_, hl, hd]
  case h_3 l => exact readAccess_entries l status data
  case h_4 l => exact flushAccess_entries l status data
  case h_5 cmd l =>
    refine cmdAccess_entries l status fun hl _ => ?_
    have at_ := pos_of_positionFor hp (by simp [entryOf, hl])
    simp [State.byteBeingWritten, at_, hl, hd]
  case h_6 l =>
    refine initAccess_entries l status data fun c hc _ _ => ?_
    have at_ := pos_of_positionFor hp (by rintro ⟨⟩; cases hc)
    simp [State.byteBeingWritten, at_, hc]
  case h_7 nargs arg1 arg0 opcode l =>
    refine sendAccess_entries l status data fun hl _ => ?_
    have at_ := pos_of_positionFor hp (by simp [entryOf, hl])
    have idx := h.idx_lt (bytes := commandBytes nargs arg1 arg0 opcode) (by simp [at_, hl, sendLabel])
      (by simp [commandLength, at_, hd])
    simp [State.byteBeingWritten, at_, hl, hd, idx]
  case h_8 l =>
    refine kbdAccess_entries l status data (fun k c hl hc _ _ => ?_) (fun hl _ => ?_) (fun hl _ => ?_)
    · have at_ := pos_of_positionFor hp (by rintro ⟨⟩; cases hl; cases hc)
      simp [State.byteBeingWritten, at_, hl, hc]
    · have at_ := pos_of_positionFor hp (by simp [entryOf, hl])
      have idx := h.kbdinit_idx at_ (by simp [hl, sendLabel])
      simp [State.byteBeingWritten, at_, hl, idx]
    · have at_ := pos_of_positionFor hp (by simp [entryOf, hl])
      have idx := h.kbdinit_idx at_ (by simp [hl, sendLabel])
      simp [State.byteBeingWritten, at_, hl, idx]
  case h_9 => exact fun _ he => absurd he List.not_mem_nil

end Sys2Proof.Safety
end

section
/-! The obligations of the family: port accesses. -/

namespace Sys2Proof.Scope

open Sys2Proof.Machine Sys2Proof.Safety

variable {s t : State}

/-- What an action adds to the history, but for the response, is its access. -/
theorem mem_entries_of_acted {a : Access} {es : List TraceEvent} {e : TraceEvent} (h : Acted s a t)
    (ht : t.trace = es ++ s.trace) (he : e ∈ es) (hr : isResponse e = false) : e ∈ a.entries s := by
  obtain ⟨rs, hrs, ⟨rfl, -⟩ | ⟨⟨st, v, rfl⟩, -⟩⟩ := acted_entries h
  · rw [hrs, List.append_cancel_right_eq] at ht
    rwa [← ht] at he
  · rw [hrs, List.append_cancel_right_eq] at ht
    rw [← ht] at he
    rcases List.mem_cons.1 he with rfl | he
    · cases hr
    · exact he

/-- R8, R51, R82: at most one port access, and only a permitted one. -/
theorem exec_accesses {i : Instr} (he : exec i s = .next t) :
    ∃ es, t.trace = es ++ s.trace ∧ es.countP isPortAccess ≤ 1 ∧ ∀ e ∈ es, PermittedAccess s.par i e := by
  by_cases hi : i = .advanceTick ∨ i = .kbdByte
  · obtain ⟨-, -, -, ⟨rfl, ht⟩ | ⟨rfl, b, ht⟩⟩ := exec_event hi he
    · exact ⟨_, ht, by simp [isPortAccess], by simp [PermittedAccess]⟩
    · exact ⟨_, ht, by simp [List.countP_cons, isPortAccess], by simp [PermittedAccess]⟩
  · obtain ⟨p, -, acted⟩ := exec_request_acted (not_or.1 hi) he
    obtain ⟨-, -, one⟩ := entries_counts s (accessOf s i p)
    have permitted := accessOf_permitted s i p
    obtain ⟨rs, ht, ⟨rfl, -⟩ | ⟨⟨st, v, rfl⟩, -⟩⟩ := acted_entries acted
    · exact ⟨_, ht, by simpa using one, by simpa using permitted⟩
    · exact ⟨_, ht, by simpa [isPortAccess] using one, List.forall_mem_cons.2 ⟨trivial, permitted⟩⟩

/-- R84, R162: `KBDINIT` writes `0xFF` and `0xF4` only to the data port. -/
theorem kbdinit_dataWrites (h : Inv s) {p : Position} (hp : positionFor .kbdinit s.pos = some p) :
    ∀ e ∈ (accessOf s .kbdinit p).entries s, ∀ b, e = .ioW s.par.portPs2Data b → b = 0xFF ∨ b = 0xF4 := by
  obtain ⟨-, -, -, -, -, -, -, -, dataStCmd⟩ := h.params
  cases p with
  | kbdinit l =>
    refine kbdAccess_entries l nofun nofun (fun k c _ _ _ b hb => ?_) (fun hl b hb => ?_) (fun hl b hb => ?_)
    · exact absurd (TraceEvent.ioW.inj hb).1.symm dataStCmd
    · have at_ := pos_of_positionFor hp (by simp [entryOf, hl])
      have idx := h.kbdinit_idx at_ (by simp [hl, sendLabel])
      exact .inl (by simpa [idx] using (TraceEvent.ioW.inj hb).2.symm)
    · have at_ := pos_of_positionFor hp (by simp [entryOf, hl])
      have idx := h.kbdinit_idx at_ (by simp [hl, sendLabel])
      exact .inr (by simpa [idx] using (TraceEvent.ioW.inj hb).2.symm)
  | _ => exact fun _ he => absurd he List.not_mem_nil

/-- R75, R141: `SENDCMD` writes bytes of its command only. -/
theorem sendcmd_writes (h : Inv s) {nargs : BitVec 2} {arg1 arg0 opcode : Byte} {p : Position}
    (hd : decodeRequest s.req = .ok (.sendcmd nargs arg1 arg0 opcode))
    (hp : positionFor (.sendcmd nargs arg1 arg0 opcode) s.pos = some p) :
    ∀ e ∈ (accessOf s (.sendcmd nargs arg1 arg0 opcode) p).entries s,
      ∀ q b, e = .ioW q b → b ∈ commandBytes nargs arg1 arg0 opcode := by
  cases p with
  | sendcmd l =>
    refine sendAccess_entries l nofun nofun fun hl q b hb => ?_
    have at_ := pos_of_positionFor hp (by simp [entryOf, hl])
    have idx := h.idx_lt (bytes := commandBytes nargs arg1 arg0 opcode) (by simp [at_, hl, sendLabel])
      (by simp [commandLength, at_, hd])
    rw [← (TraceEvent.ioW.inj hb).2, List.getD_eq_getElem _ _ idx]
    exact List.getElem_mem idx
  | _ => exact fun _ he => absurd he List.not_mem_nil

/-- R28: after the action that reads the data port `CUR` is the byte read. -/
theorem curByte_of_dataRead {a : Access} (h : s.par.Ok) (acted : Acted s a t) {b : Byte}
    (he : .ioR s.par.portPs2Data b ∈ a.entries s) : t.curByte = b := by
  obtain ⟨-, -, -, -, -, -, -, -, dataStCmd⟩ := h
  cases a with
  | status => simp [Access.entries, dataStCmd] at he
  | data =>
    have hb : b = s.envAnswer s.par.portPs2Data := by simpa [Access.entries] using he
    exact hb ▸ acted.cur rfl
  | nothing => simp [Access.entries] at he
  | write p b => simp [Access.entries] at he

/-- Settles O54: each clause is read off the access of the label the action runs. -/
theorem portAccessesArePermitted : Obligations.PortAccessesArePermitted := by
  refine ⟨fun i s t he => exec_accesses he, fun s t es b h he ht hb => ?_,
    fun nargs arg1 arg0 opcode b s t es h hd he ht hb => ?_, fun i s t es b h hd he ht => ?_⟩
  · obtain ⟨p, hp, acted⟩ := exec_request_acted (i := .kbdinit) ⟨nofun, nofun⟩ he
    exact kbdinit_dataWrites h hp _ (mem_entries_of_acted acted ht hb rfl) b rfl
  · obtain ⟨p, hp, acted⟩ := exec_request_acted (decodeRequest_ok_isRequest hd) he
    exact sendcmd_writes h hd hp _ (mem_entries_of_acted acted ht hb rfl) _ b rfl
  · obtain ⟨p, hp, acted⟩ := exec_request_acted (decodeRequest_ok_isRequest hd) he
    have written := accessOf_writesCur h hd hp
    refine ⟨?_, fun hb => curByte_of_dataRead h.params acted (mem_entries_of_acted acted ht hb rfl)⟩
    rintro (hb | hb)
    · exact s.curByte_of_some (written _ (mem_entries_of_acted acted ht hb rfl) (.inl rfl))
    · exact s.curByte_of_some (written _ (mem_entries_of_acted acted ht hb rfl) (.inr rfl))

end Sys2Proof.Scope
end

section
/-! SUPPORT. The one action a request instruction runs at a position, as a function of the state. -/

namespace Sys2Proof.Safety

open Sys2Proof.Machine

variable {s t : State} {i : Instr} {p : Position}

/-- `f` is the action of instruction `i` at the position `p` of its operation. -/
inductive ActionAt : Instr → Position → (State → State) → Prop
  | clkinit (freq : Word32) (l : ClkPc) : ActionAt (.clkinit freq) (.clkinit l) (clkinitAction freq l)
  | gettick : ActionAt .gettick .gettick fun s => s.respond .ok (tick32 s.tick)
  | deadline (ms : Word32) : ActionAt (.deadline ms) .deadline fun s => s.respond .ok (tick32 (s.deadlineIn ms))
  | expired (d : Word32) : ActionAt (.expired d) .expired
      fun s => s.respond .ok (if s.expired (d.toNat % s.modulus) then 1 else 0)
  | sleep (ms : Word32) (l : SleepPc) : ActionAt (.sleep ms) (.sleep l) (sleepAction ms l)
  | ps2wr (byte : Byte) (l : WritePc) : ActionAt (.ps2wr byte) (.ps2wr l)
      (writeToDevice byte false l .ps2wr fun r s => s.respond r 0)
  | ps2rd (l : ReadPc) : ActionAt .ps2rd (.ps2rd l) (readFromDevice l .ps2rd fun r b s => s.respond r (zext32 b))
  | ps2flush (l : FlushPc) : ActionAt .ps2flush (.ps2flush l) (flush l .ps2flush fun r s => s.respond r 0)
  | ps2cmd (cmd : Byte) (l : CmdPc) : ActionAt (.ps2cmd cmd) (.ps2cmd l)
      (cmdWrite cmd l .ps2cmd fun r s => s.respond r 0)
  | ps2init (l : InitPc) : ActionAt .ps2init (.ps2init l) (ps2Init l .ps2init fun st v s => s.respond st v)
  | sendcmd (nargs : BitVec 2) (arg1 arg0 opcode : Byte) (l : SendPc) :
      ActionAt (.sendcmd nargs arg1 arg0 opcode) (.sendcmd l)
        (sendCommand (commandBytes nargs arg1 arg0 opcode) false l .sendcmd fun st v s => s.respond st v)
  | scanpop : ActionAt .scanpop .scanpop scanpopAction
  | kbdinit (l : KbdPc) : ActionAt .kbdinit (.kbdinit l) (kbdinitAction l)

/-- Wherever a request instruction has a position, there is one action, and `exec` runs it from every state with
that position. -/
theorem exec_runs_action (hi : i ≠ .advanceTick ∧ i ≠ .kbdByte) (hp : positionFor i s.pos = some p) :
    ∃ f, ActionAt i p f ∧ ∀ u : State, u.pos = s.pos → exec i u = .next (f u) := by
  have ho := op_of_positionFor hp
  cases i
  case advanceTick => exact absurd rfl hi.1
  case kbdByte => exact absurd rfl hi.2
  all_goals
    cases p <;> cases ho
    refine ⟨_, by constructor, fun u hu => ?_⟩
    simp only [exec, execClkinit, execGettick, execDeadline, execExpired, execSleep, execPs2wr, execPs2rd,
      execPs2flush, execPs2cmd, execPs2init, execSendcmd, execScanpop, execKbdinit, hu, hp]

/-- The only way a request instruction answers a next state; the same action runs from every state with the same
position. -/
theorem exec_request_next (hi : i ≠ .advanceTick ∧ i ≠ .kbdByte) (he : exec i s = .next t) :
    ∃ p f, positionFor i s.pos = some p ∧ ActionAt i p f ∧ t = f s ∧
      ∀ u : State, u.pos = s.pos → exec i u = .next (f u) := by
  cases hp : positionFor i s.pos with
  | none =>
    rw [exec_refused hi hp] at he
    cases he
  | some p =>
    obtain ⟨f, action, runs⟩ := exec_runs_action hi hp
    rw [runs s rfl] at he
    cases he
    exact ⟨p, f, rfl, action, rfl, runs⟩

/-- While an operation is in progress, an instruction stands where the sequencer does. -/
theorem positionFor_busy (busy : s.pos ≠ .idle) (hp : positionFor i s.pos = some p) : p = s.pos := by
  unfold positionFor at hp
  rw [if_neg busy] at hp
  split_ifs at hp
  cases hp
  rfl

end Sys2Proof.Safety
end

section
/-! SUPPORT. What an action does to `TICK`, the queue and the latch: most write none of them, whichever routine runs. -/

namespace Sys2Proof.Safety

open Sys2Proof.Machine

variable {s t u : State} {p : Position}

/-- The registers of R21, R25, R27 that only few actions write. -/
def keptOf (s : State) := (s.tick, s.scanq, s.overrun, s.unresp)

/-- `u` has the `TICK`, the queue with `OVERRUN`, and the latch of `s`. -/
def Kept (s u : State) : Prop := keptOf u = keptOf s

/-- A command that answers `(st, v)` may latch the pair `(a, x)`: `(Timeout, 0)`, or, for `DeviceUnresponsive`, its
own response (R147 to R149). -/
def LatchesPair (st : Status) (v : Word32) (a : Status) (x : Word32) : Prop :=
  ((st = .timeout ∨ st = .protocolError) ∧ a = .timeout ∧ x = 0) ∨ (st = .deviceUnresponsive ∧ a = st ∧ x = v)

theorem LatchesPair.ne_ok {st a : Status} {v x : Word32} (h : LatchesPair st v a x) : st ≠ .ok := by
  rintro rfl
  simp [LatchesPair] at h

/-! ### The micro-routines -/

section
variable {P : State → Prop}

theorem writeToDevice_kept {b : Byte} {arm : Bool} {at_ : WritePc → Position} {ret : Status → State → State}
    (l : WritePc) (moves : ∀ q u, Kept s u → P (u.goto q)) (returns : ∀ r u, Kept s u → P (ret r u)) :
    P (writeToDevice b arm l at_ ret s) :=
  writeToDevice_elim l (p0 := fun _ => moves _ _ rfl) (free := fun _ _ => moves _ _ rfl)
    (full := fun _ _ => moves _ _ rfl) (timeout := fun _ _ => returns _ _ rfl) (again := fun _ _ => moves _ _ rfl)
    (armed := fun _ _ => returns _ _ rfl) (unarmed := fun _ _ => returns _ _ rfl)

theorem readFromDevice_kept {at_ : ReadPc → Position} {ret : Status → Byte → State → State}
    (l : ReadPc) (moves : ∀ q u, Kept s u → P (u.goto q)) (returns : ∀ r b u, Kept s u → P (ret r b u)) :
    P (readFromDevice l at_ ret s) :=
  readFromDevice_elim l (p0 := fun _ => moves _ _ rfl) (full := fun _ _ => moves _ _ rfl)
    (empty := fun _ _ => moves _ _ rfl) (timeout := fun _ _ => returns _ _ _ rfl)
    (again := fun _ _ => moves _ _ rfl) (read := fun _ => returns _ _ _ rfl)

theorem cmdWrite_kept {c : Byte} {at_ : CmdPc → Position} {ret : Status → State → State}
    (l : CmdPc) (moves : ∀ q u, Kept s u → P (u.goto q)) (returns : ∀ r u, Kept s u → P (ret r u)) :
    P (cmdWrite c l at_ ret s) :=
  cmdWrite_elim l (p0 := fun _ => moves _ _ rfl) (free := fun _ _ => moves _ _ rfl)
    (full := fun _ _ => moves _ _ rfl) (timeout := fun _ _ => returns _ _ rfl) (again := fun _ _ => moves _ _ rfl)
    (write := fun _ => returns _ _ rfl)

theorem flush_kept {at_ : FlushPc → Position} {ret : Status → State → State}
    (l : FlushPc) (moves : ∀ q u, Kept s u → P (u.goto q)) (returns : ∀ r u, Kept s u → P (ret r u)) :
    P (flush l at_ ret s) :=
  flush_elim l (f0 := fun _ => moves _ _ rfl) (empty := fun _ _ => returns _ _ rfl)
    (full := fun _ _ => moves _ _ rfl) (timeout := fun _ _ => returns _ _ rfl) (again := fun _ _ => moves _ _ rfl)
    (discard := fun _ => moves _ _ rfl)

/-- `ps2_init` clears the latch in its first action and writes none of the kept registers otherwise (R121, R149). -/
theorem ps2Init_kept {at_ : InitPc → Position} {ret : Status → Word32 → State → State} (l : InitPc)
    (begins : l = .i0 → P (({ s with unresp := false }.setCtrl .uninit).goto (at_ (.flush .f0))))
    (moves : ∀ q u, Kept s u → P (u.goto q)) (returns : ∀ st v u, Kept s u → P (ret st v u)) :
    P (ps2Init l at_ ret s) := by
  refine ps2Init_elim l begins (fun _ => moves _ _ rfl) (fun _ => moves _ _ rfl) (fun k _ => ?flush)
    (fun k _ => ?selfCmd) (fun k _ => ?selfRead) (fun k _ => ?portCmd) (fun k _ => ?portRead) (fun k _ => ?enable)
  case flush =>
    refine flush_kept k moves fun r u h => ?_
    split
    · exact returns _ _ _ h
    · exact moves _ _ h
  case selfRead | portRead =>
    refine readFromDevice_kept k moves fun r b u h => ?_
    split_ifs
    · exact returns _ _ _ h
    · exact returns _ _ _ h
    · exact moves _ _ h
  case selfCmd | portCmd =>
    refine cmdWrite_kept k moves fun r u h => ?_
    split
    · exact returns _ _ _ h
    · exact moves _ _ h
  case enable =>
    refine cmdWrite_kept k moves fun r u h => ?_
    split <;> exact returns _ _ _ h

/-- `send_command` writes none of the kept registers but the latch, and that only when it fails (R141, R149). -/
theorem sendCommand_kept {bytes : List Byte} {rearm : Bool} {at_ : SendPc → Position}
    {ret : Status → Word32 → State → State} (l : SendPc) (stays : P s)
    (moves : ∀ q u, Kept s u → P (u.goto q)) (returns : ∀ st v u, Kept s u → P (ret st v u))
    (fails : ∀ st v u a x, Kept s u → LatchesPair st v a x → P (ret st v (u.latch a x))) :
    P (sendCommand bytes rearm l at_ ret s) := by
  refine sendCommand_elim l (fun _ _ => returns _ _ _ rfl) (fun _ _ => moves _ _ rfl) (fun k _ => ?write)
    (fun _ => ?await) (fun _ => fails _ _ _ _ _ rfl (.inl ⟨.inl rfl, rfl, rfl⟩)) (fun _ => moves _ _ rfl)
    (fun k _ => ?flush)
  case write =>
    refine writeToDevice_kept k moves fun r u h => ?_
    split
    · exact fails _ _ _ _ _ h (.inl ⟨.inl rfl, rfl, rfl⟩)
    · exact moves _ _ h
  case await =>
    exact awaitAction_elim (expired := fun _ _ => moves _ _ rfl) (waits := fun _ _ => moves _ _ rfl)
      (lastRearm := fun _ _ _ => returns _ _ _ rfl) (last := fun _ _ _ => returns _ _ _ rfl)
      (more := fun _ _ => moves _ _ rfl) (exhausted := fun _ _ => fails _ _ _ _ _ rfl (.inr ⟨rfl, rfl, rfl⟩))
      (retry := fun _ _ => moves _ _ rfl) (desync := fun _ => moves _ _ rfl) (outside := fun _ => stays)
  case flush =>
    refine flush_kept k moves fun r u h => ?_
    split
    · exact fails _ _ _ _ _ h (.inl ⟨.inr rfl, rfl, rfl⟩)
    · exact returns _ _ _ h

end

/-! ### The instructions -/

/-- The positions where a command, or the wait for `0xAA` with its flush, can fail and latch (R149). -/
def MayLatch (p : Position) : Prop :=
  (∃ l, sendLabel p = some l) ∨ p = .kbdinit .b2 ∨ ∃ l, p = .kbdinit (.flush l)

/-- `t` has just answered a response that latches, and the latch holds what goes with it. -/
def AnsweredLatching (t : State) : Prop :=
  ∃ st v, t.pos = .idle ∧ t.rsp = responseWord st v ∧ t.trace.head? = some (.rsp st v) ∧
    LatchesPair st v t.latchStatus t.latchValue

theorem answeredLatching {st a : Status} {v x : Word32} (h : LatchesPair st v a x) :
    AnsweredLatching ((u.latch a x).respond st v) :=
  ⟨st, v, rfl, rfl, rfl, h⟩

/-- Everything an action at position `p` does to `TICK`, the queue, `OVERRUN` and the latch. -/
structure Effect (p : Position) (s t : State) : Prop where
  tick : t.tick = s.tick ∨ (t.tick = 0 ∧ p = .clkinit .c4)
  scanq : t.scanq = s.scanq ∨ ∃ b, s.scanq = b :: t.scanq ∧ p = .scanpop
  overrun : t.overrun = s.overrun
  unresp : t.unresp = s.unresp ∨ (t.unresp = false ∧ initLabel p = some .i0) ∨
    (t.unresp = true ∧ MayLatch p ∧ AnsweredLatching t)

theorem effect_of_kept (h : Kept s t) : Effect p s t := by
  simp only [Kept, keptOf, Prod.mk.injEq] at h
  obtain ⟨tick, scanq, overrun, unresp⟩ := h
  exact ⟨.inl tick, .inl scanq, overrun, .inl unresp⟩

/-- The first action of `ps2_init` clears the latch and nothing else of these. -/
theorem effect_unlatch (hp : initLabel p = some .i0) (q : Position) :
    Effect p s (({ s with unresp := false }.setCtrl .uninit).goto q) :=
  ⟨.inl rfl, .inl rfl, rfl, .inr (.inl ⟨rfl, hp⟩)⟩

/-- A failing command latches and answers. -/
theorem Kept.effect_latch {st a : Status} {v x : Word32} (h : Kept s u) (hp : MayLatch p) (hl : LatchesPair st v a x) :
    Effect p s ((u.latch a x).respond st v) := by
  simp only [Kept, keptOf, Prod.mk.injEq] at h
  obtain ⟨tick, scanq, overrun, -⟩ := h
  exact ⟨.inl tick, .inl scanq, overrun, .inr (.inr ⟨rfl, hp, answeredLatching hl⟩)⟩

theorem clkinitAction_effect (freq : Word32) (l : ClkPc) : Effect (.clkinit l) s (clkinitAction freq l s) := by
  cases l with
  | c4 => exact ⟨.inr ⟨rfl, rfl⟩, .inl rfl, rfl, .inl rfl⟩
  | _ => exact effect_of_kept rfl

theorem sleepAction_effect (ms : Word32) (l : SleepPc) : Effect p s (sleepAction ms l s) := by
  cases l with
  | s0 => exact effect_of_kept rfl
  | s1 =>
    rw [sleepAction]
    split <;> exact effect_of_kept rfl

theorem scanpopAction_effect : Effect .scanpop s (scanpopAction s) := by
  unfold scanpopAction
  split
  case h_1 => exact effect_of_kept rfl
  case h_2 b rest hq => exact ⟨.inl rfl, .inr ⟨b, hq, rfl⟩, rfl, .inl rfl⟩

theorem batAction_effect : Effect p s (batAction s) := by
  unfold batAction
  split
  all_goals split <;> exact effect_of_kept rfl

theorem kbdinitAction_effect (l : KbdPc) : Effect (.kbdinit l) s (kbdinitAction l s) := by
  cases l with
  | init l =>
    rw [kbdinitAction]
    refine ps2Init_kept l (fun e => effect_unlatch (by rw [e]; rfl) _) (fun _ _ h => effect_of_kept h)
      fun st v u h => ?_
    split <;> exact effect_of_kept h
  | reset l =>
    rw [kbdinitAction]
    refine sendCommand_kept l (effect_of_kept rfl) (fun _ _ h => effect_of_kept h) (fun st v u h => ?_)
      (fun st v u a x h hl => ?_)
    · split <;> exact effect_of_kept h
    · simpa only [hl.ne_ok, if_false] using h.effect_latch (.inl ⟨l, rfl⟩) hl
  | enable l =>
    rw [kbdinitAction]
    exact sendCommand_kept l (effect_of_kept rfl) (fun _ _ h => effect_of_kept h) (fun _ _ _ h => effect_of_kept h)
      (fun _ _ _ _ _ h hl => h.effect_latch (.inl ⟨l, rfl⟩) hl)
  | b1 => exact batAction_effect
  | b2 => exact Kept.effect_latch rfl (.inr (.inl rfl)) (.inl ⟨.inl rfl, rfl, rfl⟩)
  | b3 => exact effect_of_kept rfl
  | flush l =>
    rw [kbdinitAction]
    refine flush_kept l (fun _ _ h => effect_of_kept h) fun r u h => ?_
    split
    · exact h.effect_latch (.inr (.inr ⟨l, rfl⟩)) (.inl ⟨.inr rfl, rfl, rfl⟩)
    · exact effect_of_kept h

/-- What an action does to these registers, for every request instruction and position. -/
theorem ActionAt.effect {i : Instr} {f : State → State} (action : ActionAt i p f) (s : State) : Effect p s (f s) := by
  have moves (q : Position) (u : State) (h : Kept s u) : Effect p s (u.goto q) := effect_of_kept h
  have responds (st : Status) (v : Word32) (u : State) (h : Kept s u) : Effect p s (u.respond st v) := effect_of_kept h
  cases action with
  | clkinit freq l => exact clkinitAction_effect freq l
  | gettick | deadline | expired => exact responds _ _ _ rfl
  | sleep ms l => exact sleepAction_effect ms l
  | ps2wr byte l => exact writeToDevice_kept l moves fun _ => responds _ _
  | ps2rd l => exact readFromDevice_kept l moves fun _ _ => responds _ _
  | ps2flush l => exact flush_kept l moves fun _ => responds _ _
  | ps2cmd cmd l => exact cmdWrite_kept l moves fun _ => responds _ _
  | ps2init l => exact ps2Init_kept l (fun e => effect_unlatch (by rw [e]; rfl) _) moves responds
  | sendcmd nargs arg1 arg0 opcode l =>
    exact sendCommand_kept l (effect_of_kept rfl) moves responds fun _ _ _ _ _ h hl => h.effect_latch (.inl ⟨l, rfl⟩) hl
  | scanpop => exact scanpopAction_effect
  | kbdinit l => exact kbdinitAction_effect l

/-! ### The step -/

theorem accept_kept (s : State) (w : Word40) : Kept s (s.accept w) := by
  cases hd : decodeRequest w with
  | ok i => rw [accept_legal hd]; rfl
  | error e => rw [accept_illegal hd]; rfl

/-- Everything a step does to these registers: the reset input, one event, or the turn of the sequencer or of HOST. -/
theorem step_effect (h : step s = .next t) :
    (∃ rest, s.inputs = .reset :: rest ∧ t = { s with inputs := rest }.resetInput) ∨
    (∃ w u, s.inputs.head? = some (.ev w) ∧ (∃ inputs draws, u = { s with inputs := inputs, draws := draws }) ∧
      ((w.getLsbD 0 = true ∧ t = u.takeEvent u.par.irqTimer advanceTickBody) ∨
        (w.getLsbD 1 = true ∧ t = u.takeEvent u.par.irqKbd kbdByteBody))) ∨
    (Quiet s ∧ Effect s.pos s t) := by
  obtain ⟨rest, hi, rfl⟩ | ⟨w, rest, e, inputs, draws, hi, he, hx⟩ | ⟨hq, -, -, rfl⟩ | ⟨w, rest, hq, -, -, rfl⟩ |
    ⟨i, hq, hp, hd, hx⟩ := step_next h
  · exact .inl ⟨rest, hi, rfl⟩
  · refine .inr (.inl ⟨w, { s with inputs := inputs, draws := draws }, by rw [hi]; rfl, ⟨inputs, draws, rfl⟩, ?_⟩)
    obtain ⟨rfl, hw⟩ | ⟨rfl, hw⟩ := he
    · cases hx
      exact .inl ⟨hw, rfl⟩
    · cases hx
      exact .inr ⟨hw, rfl⟩
  · exact .inr (.inr ⟨hq, effect_of_kept rfl⟩)
  · exact .inr (.inr ⟨hq, effect_of_kept (accept_kept _ w)⟩)
  · obtain ⟨p, f, hpos, action, rfl, -⟩ := exec_request_next (decodeRequest_ok_isRequest hd) hx
    obtain rfl := positionFor_busy (s := sampled s) hp hpos
    obtain ⟨tick, scanq, overrun, unresp⟩ := action.effect (sampled s)
    exact .inr (.inr ⟨hq, tick, scanq, overrun, unresp⟩)

end Sys2Proof.Safety
end

section
/-! The obligations of the family: the state at reset, and who writes `TICK`, the queue and the latch. -/

namespace Sys2Proof.Scope

open Sys2Proof.Machine Sys2Proof.Safety

/-- Settles O10: `State.resetOf` is the table of R36. -/
theorem resetValues : Obligations.ResetValues :=
  ⟨⟨_, rfl⟩, fun _ => ⟨rfl, rfl, rfl, rfl, rfl, rfl, rfl, rfl, rfl, rfl, rfl, rfl, rfl, rfl, rfl⟩⟩

/-- The reset input is the whole step. -/
theorem step_reset {s : State} {rest : List Input} (hi : s.inputs = .reset :: rest) :
    step s = .next { s with inputs := rest }.resetInput := by
  simp only [step, State.turn, hi]

/-- Settles O11: the step of the reset input is `State.resetInput`, whose registers are those of `State.resetOf`. -/
theorem resetInputRestoresRegisters : Obligations.ResetInputRestoresRegisters := by
  intro s rest hi
  refine ⟨_, step_reset hi, rfl, rfl, ?_⟩
  obtain ⟨-, values⟩ := resetValues
  obtain ⟨-, tick, freq, divisor, ctrl, unresp, latchStatus, latchValue, ack, ackByte, scanq, overrun, -, req, rsp⟩ :=
    values s.par
  exact ⟨tick, freq, divisor, ctrl, unresp, latchStatus, latchValue, ack, ackByte, scanq, overrun, req, rsp,
    rfl, rfl, rfl, rfl, rfl⟩

/-- Settles O15: of the events only the tick, and of the actions only the last of `CLKINIT`, writes `TICK`. -/
theorem tickHasTwoWriters : Obligations.TickHasTwoWriters := by
  intro s t h
  obtain ⟨rest, hi, rfl⟩ | ⟨w, u, hw, ⟨inputs, draws, rfl⟩, ⟨bit, rfl⟩ | ⟨-, rfl⟩⟩ | ⟨hq, effect⟩ := step_effect h
  · exact .inr (.inr ⟨rfl, .inl (by rw [hi]; rfl)⟩)
  · exact .inr (.inl ⟨rfl, w, hw, bit⟩)
  · rw [kbdEvent_effect]
    exact .inl rfl
  · obtain tick | ⟨tick, hp⟩ := effect.tick
    · exact .inl tick
    · exact .inr (.inr ⟨tick, .inr ⟨hq, hp⟩⟩)

/-- A queue without room is bounded and at its capacity (R27). -/
theorem full_of_noRoom {s : State} (h : s.queueHasRoom = false) :
    ∃ cap, s.par.scanqCap = some cap ∧ cap ≤ s.scanq.length := by
  cases hc : s.par.scanqCap with
  | none => simp [queueHasRoom_unbounded hc] at h
  | some cap => exact ⟨cap, rfl, by simpa [State.queueHasRoom, hc] using h⟩

/-- Settles O38: the keyboard event appends or sets `OVERRUN`, `[o1]` removes the head, reset empties. -/
theorem queueIsFirstInFirstOut : Obligations.QueueIsFirstInFirstOut := by
  intro s t h
  obtain ⟨rest, hi, rfl⟩ | ⟨w, u, hw, ⟨inputs, draws, rfl⟩, ⟨-, rfl⟩ | ⟨bit, rfl⟩⟩ | ⟨hq, effect⟩ := step_effect h
  · have reset : s.inputs.head? = some .reset := by rw [hi]; rfl
    exact ⟨.inr (.inr (.inr ⟨rfl, reset⟩)), fun _ _ => reset, nofun⟩
  · rw [tickEvent_effect]
    exact ⟨.inl rfl, fun set clear => by simp [set] at clear, fun clear set => by simp [clear] at set⟩
  · rw [kbdEvent_effect]
    refine ⟨?_, fun set clear => ?_, fun clear set => ?_⟩
    · dsimp only
      split_ifs with room
      · exact .inr (.inl ⟨_, w, rfl, room.1, hw, bit⟩)
      · exact .inl rfl
    · simp [set] at clear
    · dsimp only at set
      split_ifs at set with full
      · obtain ⟨cap, hcap, length⟩ := full_of_noRoom full.2
        exact ⟨w, cap, hw, bit, hcap, length⟩
      · simp [clear] at set
  · refine ⟨?_, fun set clear => ?_, fun clear set => ?_⟩
    · obtain scanq | ⟨b, scanq, hp⟩ := effect.scanq
      · exact .inl scanq
      · exact .inr (.inr (.inl ⟨b, scanq, hp, hq⟩))
    · simp [effect.overrun, set] at clear
    · simp [effect.overrun, clear] at set

/-- Settles O47: of the actions only `[i0]` clears the latch, and only an action that answers a failure sets it. -/
theorem latchClearedOnlyByReinit : Obligations.LatchClearedOnlyByReinit := by
  intro s t h
  have unchanged {P Q : Prop} (e : t.unresp = s.unresp) :
      (s.unresp = true → t.unresp = false → P) ∧ (s.unresp = false → t.unresp = true → Q) :=
    ⟨fun set clear => by simp [e, set] at clear, fun clear set => by simp [e, clear] at set⟩
  obtain ⟨rest, hi, rfl⟩ | ⟨w, u, hw, ⟨inputs, draws, rfl⟩, ⟨-, rfl⟩ | ⟨-, rfl⟩⟩ | ⟨hq, effect⟩ := step_effect h
  · exact ⟨fun _ _ => .inr (by rw [hi]; rfl), nofun⟩
  · exact unchanged rfl
  · exact unchanged (by rw [kbdEvent_effect])
  · obtain same | ⟨clear, hp⟩ | ⟨set, may, answered⟩ := effect.unresp
    · exact unchanged same
    · exact ⟨fun _ _ => .inl hp, fun _ set => by simp [clear] at set⟩
    · exact ⟨fun _ clear => by simp [set] at clear, fun _ _ => ⟨may, answered⟩⟩

end Sys2Proof.Scope
end

section
/-! SUPPORT. Two runs that differ in sequencer locals: what of the locals they still share at each position. -/

namespace Sys2Proof.Safety

open Sys2Proof.Machine

variable {s t u : State} {p : Position}

/-- The state without its sequencer locals. -/
def forget (s : State) : State := withLocals s 0 0 0 0 0

/-- What two runs are known to share beyond everything but the locals: `DL`; `IDX` and `RETRIES`; a clear latch. -/
structure Known where
  deadline : Bool
  counters : Bool
  unlatched : Bool

/-- The latch is clear: in `ps2_init` after its first action, and where `KBDINIT` begins its `0xFF` command. There a
latch would let that command answer before any deadline is made (R141). -/
def unlatchedAt (p : Position) : Bool :=
  match initLabel p with
  | some .i0 => false
  | some _ => true
  | none => decide (p = .kbdinit (.reset .s0))

/-- What two runs share when both stand at `p`. -/
def knownAt (p : Position) : Known := ⟨deadlineLive p, countersLive p, unlatchedAt p⟩

/-- `s` and `u` agree but for the locals, and as `k` says. -/
structure Alike (k : Known) (s u : State) : Prop where
  others : forget u = forget s
  dl : k.deadline = true → u.dl = s.dl
  counters : k.counters = true → u.idx = s.idx ∧ u.retries = s.retries
  unlatched : k.unlatched = true → s.unresp = false

/-- The two runs may go on: they share what is live at their position. -/
abbrev Related (s u : State) : Prop := Alike (knownAt s.pos) s u

section
variable {k : Known} {d c f : Bool}

/-- What does not read the locals is the same in both runs. -/
theorem Alike.same {α : Type} (h : Alike k s u) (g : State → α) (hg : ∀ x, g (forget x) = g x) : g u = g s := by
  rw [← hg u, h.others, hg s]

/-- While a deadline is shared, both runs see it expire alike. -/
theorem Alike.expired (h : Alike ⟨true, c, f⟩ s u) : u.expired u.dl = s.expired s.dl := by
  rw [h.dl rfl]
  exact h.same (·.expired s.dl) fun _ => rfl

/-- A finished wait leaves no deadline to share. -/
theorem Alike.waited (h : Alike ⟨d, c, f⟩ s u) : Alike ⟨false, c, f⟩ s u :=
  ⟨h.others, nofun, h.counters, h.unlatched⟩

/-- A latch known to be clear serves a position whether or not it asks for that. -/
theorem Alike.latchAny (h : Alike ⟨d, c, true⟩ s u) : Alike ⟨d, c, f⟩ s u :=
  ⟨h.others, h.dl, h.counters, fun _ => h.unlatched rfl⟩

/-- Where nothing is live, states that agree but for the locals are related. -/
theorem Alike.dead (h : Alike k s u) : Alike ⟨false, false, false⟩ s u := ⟨h.others, nofun, nofun, nofun⟩

/-- The locals that can be live, and the latch. -/
def liveOf (s : State) := (s.dl, s.idx, s.retries, s.unresp)

/-- An update that neither writes what can be live nor reads the locals keeps what is shared. -/
theorem Alike.map (h : Alike k s u) (g : State → State) (blind : ∀ x, forget (g x) = forget (g (forget x)))
    (kept : ∀ x, liveOf (g x) = liveOf x) : Alike k (g s) (g u) := by
  simp only [liveOf, Prod.mk.injEq] at kept
  obtain ⟨dl, idx, retries, unresp⟩ := kept s
  obtain ⟨dl', idx', retries', -⟩ := kept u
  constructor
  · rw [blind u, h.others, ← blind s]
  · rw [dl, dl']
    exact h.dl
  · rw [idx, idx', retries, retries']
    exact h.counters
  · rw [unresp]
    exact h.unlatched

theorem Alike.readStatus (h : Alike k s u) : Alike k s.readStatus u.readStatus :=
  h.map State.readStatus (fun _ => rfl) fun _ => rfl

theorem Alike.readData (h : Alike k s u) : Alike k s.readData u.readData :=
  h.map State.readData (fun _ => rfl) fun _ => rfl

theorem Alike.setCtrl (h : Alike k s u) (a : CtrlState) : Alike k (s.setCtrl a) (u.setCtrl a) :=
  h.map (·.setCtrl a) (fun _ => rfl) fun _ => rfl

theorem Alike.setAck (h : Alike k s u) (a : AckState) : Alike k (s.setAck a) (u.setAck a) :=
  h.map (·.setAck a) (fun _ => rfl) fun _ => rfl

/-- A new deadline is shared: it depends on no local. -/
theorem Alike.setDeadline (h : Alike ⟨d, c, f⟩ s u) (ms : Config.Params → Word32) :
    Alike ⟨true, c, f⟩ (s.setDeadline (ms s.par)) (u.setDeadline (ms u.par)) :=
  ⟨h.others, fun _ => h.same (fun x => x.deadlineIn (ms x.par)) fun _ => rfl, h.counters, h.unlatched⟩

/-- Both runs latch; the command is about to answer, so nothing needs to be shared any more. -/
theorem Alike.latch (h : Alike k s u) (a : Status) (v : Word32) :
    Alike ⟨false, false, false⟩ (s.latch a v) (u.latch a v) :=
  ⟨congrArg (·.latch a v) h.others, nofun, nofun, nofun⟩

/-- Both runs go to a position where no more is live than they share. -/
theorem Alike.goto (h : Alike (knownAt p) s u) : Related (s.goto p) (u.goto p) :=
  h.map (·.goto p) (fun _ => rfl) fun _ => rfl

/-- Both runs end the operation. -/
theorem Alike.ends (h : Alike k s u) (g : State → State) (blind : ∀ x, forget (g x) = forget (g (forget x)))
    (idle : ∀ x, (g x).pos = .idle) : Related (g s) (g u) := by
  rw [Related, idle s]
  exact ⟨by rw [blind u, h.others, ← blind s], nofun, nofun, nofun⟩

theorem Alike.respond (h : Alike k s u) (st : Status) (v : Word32) : Related (s.respond st v) (u.respond st v) :=
  h.ends (·.respond st v) (fun _ => rfl) fun _ => rfl

/-- Both runs take the same branch. -/
theorem related_ite {C D : Prop} [Decidable C] [Decidable D] {a b a' b' : State} (same : D ↔ C)
    (yes : C → Related a a') (no : ¬ C → Related b b') : Related (if C then a else b) (if D then a' else b') := by
  by_cases h : C
  · rw [if_pos h, if_pos (same.2 h)]
    exact yes h
  · rw [if_neg h, if_neg (mt same.1 h)]
    exact no h

/-! ### The micro-routines -/

theorem pollWait_related {mask want : Byte} {ms : Config.Params → Word32} {at_ : PollPc → Position}
    {ret : Status → State → State} (l : PollPc) (h : Alike ⟨pollLive l, c, f⟩ s u)
    (moves : ∀ j v w, Alike ⟨pollLive j, c, f⟩ v w → Related (v.goto (at_ j)) (w.goto (at_ j)))
    (returns : ∀ r v w, Alike ⟨false, c, f⟩ v w → Related (ret r v) (ret r w)) :
    Related (pollWait mask want (ms s.par) l at_ ret s) (pollWait mask want (ms u.par) l at_ ret u) := by
  cases l with
  | p0 => exact moves .p1 _ _ (h.setDeadline ms)
  | p1 =>
    refine related_ite (by rw [h.same (·.readStatus.sreg) fun _ => rfl]) (fun _ => ?_) fun _ => ?_
    · exact returns _ _ _ h.readStatus.waited
    · exact moves .p2 _ _ h.readStatus
  | p2 =>
    refine related_ite (by rw [h.expired]) (fun _ => ?_) fun _ => ?_
    · exact returns _ _ _ h.waited
    · exact moves .p1 _ _ h

theorem writeToDevice_related {b : Byte} {arm : Bool} {at_ : WritePc → Position} {ret : Status → State → State}
    (l : WritePc) (h : Alike ⟨writeLive l, c, f⟩ s u)
    (moves : ∀ j v w, Alike ⟨writeLive j, c, f⟩ v w → Related (v.goto (at_ j)) (w.goto (at_ j)))
    (timeout : ∀ v w, Alike ⟨false, c, f⟩ v w → Related (ret .timeout v) (ret .timeout w))
    (wrote : ∀ v w, Alike ⟨arm, c, f⟩ v w → Related (ret .ok v) (ret .ok w)) :
    Related (writeToDevice b arm l at_ ret s) (writeToDevice b arm l at_ ret u) := by
  cases l with
  | poll l =>
    refine pollWait_related (ms := (·.tPollMs)) l h (fun j => moves (.poll j)) fun r v w hv => ?_
    exact related_ite .rfl (fun _ => timeout v w hv) fun _ => moves .w1 v w hv
  | w1 =>
    have written : Alike ⟨false, c, f⟩ (s.ioWrite s.par.portPs2Data b) (u.ioWrite u.par.portPs2Data b) :=
      h.map (fun x => x.ioWrite x.par.portPs2Data b) (fun _ => rfl) fun _ => rfl
    cases arm with
    | true => exact wrote _ _ ((written.setAck .pending).setDeadline (·.tAckMs))
    | false => exact wrote _ _ written

theorem readFromDevice_related {at_ : ReadPc → Position} {ret : Status → Byte → State → State}
    (l : ReadPc) (h : Alike ⟨readLive l, c, f⟩ s u)
    (moves : ∀ j v w, Alike ⟨readLive j, c, f⟩ v w → Related (v.goto (at_ j)) (w.goto (at_ j)))
    (returns : ∀ r b v w, Alike ⟨false, c, f⟩ v w → Related (ret r b v) (ret r b w)) :
    Related (readFromDevice l at_ ret s) (readFromDevice l at_ ret u) := by
  cases l with
  | poll l =>
    refine pollWait_related (ms := (·.tPollMs)) l h (fun j => moves (.poll j)) fun r v w hv => ?_
    exact related_ite .rfl (fun _ => returns _ _ v w hv) fun _ => moves .r1 v w hv
  | r1 =>
    rw [readFromDevice, readFromDevice, h.same (·.readData.cur) fun _ => rfl]
    exact returns _ _ _ _ h.readData

theorem cmdWrite_related {b : Byte} {at_ : CmdPc → Position} {ret : Status → State → State}
    (l : CmdPc) (h : Alike ⟨cmdLive l, c, f⟩ s u)
    (moves : ∀ j v w, Alike ⟨cmdLive j, c, f⟩ v w → Related (v.goto (at_ j)) (w.goto (at_ j)))
    (returns : ∀ r v w, Alike ⟨false, c, f⟩ v w → Related (ret r v) (ret r w)) :
    Related (cmdWrite b l at_ ret s) (cmdWrite b l at_ ret u) := by
  cases l with
  | poll l =>
    refine pollWait_related (ms := (·.tPollMs)) l h (fun j => moves (.poll j)) fun r v w hv => ?_
    exact related_ite .rfl (fun _ => returns _ v w hv) fun _ => moves .k1 v w hv
  | k1 => exact returns _ _ _ (h.map (fun x => x.ioWrite x.par.portPs2StCmd b) (fun _ => rfl) fun _ => rfl)

theorem flush_related {at_ : FlushPc → Position} {ret : Status → State → State}
    (l : FlushPc) (h : Alike ⟨flushLive l, c, f⟩ s u)
    (moves : ∀ j v w, Alike ⟨flushLive j, c, f⟩ v w → Related (v.goto (at_ j)) (w.goto (at_ j)))
    (returns : ∀ r v w, Alike ⟨false, c, f⟩ v w → Related (ret r v) (ret r w)) :
    Related (flush l at_ ret s) (flush l at_ ret u) := by
  cases l with
  | f0 => exact moves .f1 _ _ (h.setDeadline (·.tFlushMs))
  | f1 =>
    refine related_ite (by rw [h.same (·.readStatus.sreg) fun _ => rfl]) (fun _ => ?_) fun _ => ?_
    · exact moves .f2 _ _ h.readStatus
    · exact returns _ _ _ h.readStatus.waited
  | f2 =>
    refine related_ite (by rw [h.expired]) (fun _ => ?_) fun _ => ?_
    · exact returns _ _ _ h.waited
    · exact moves .f3 _ _ h
  | f3 => exact moves .f1 _ _ h.readData

/-- `ps2_init` runs with a clear latch after its first action, and returns with a clear latch. -/
theorem ps2Init_related {at_ : InitPc → Position} {ret : Status → Word32 → State → State}
    (l : InitPc) (h : Alike ⟨initLive l, false, unlatchedAt (.ps2init l)⟩ s u)
    (moves : ∀ j v w, Alike ⟨initLive j, false, true⟩ v w → Related (v.goto (at_ j)) (w.goto (at_ j)))
    (returns : ∀ st x v w, Alike ⟨false, false, true⟩ v w → Related (ret st x v) (ret st x w)) :
    Related (ps2Init l at_ ret s) (ps2Init l at_ ret u) := by
  cases l with
  | i0 =>
    have cleared : Alike ⟨false, false, true⟩ { s with unresp := false } { u with unresp := false } :=
      ⟨congrArg (fun x => { x with unresp := false }) h.others, nofun, nofun, fun _ => rfl⟩
    exact moves (.flush .f0) _ _ (cleared.setCtrl _)
  | i1 => exact moves (.selfCmd (.poll .p0)) _ _ (h.setCtrl _)
  | i2 => exact moves (.portCmd (.poll .p0)) _ _ (h.setCtrl _)
  | flush l =>
    refine flush_related l h (fun j => moves (.flush j)) fun r v w hv => ?_
    exact related_ite .rfl (fun _ => returns _ _ v w hv) fun _ => moves .i1 v w hv
  | selfCmd l =>
    refine cmdWrite_related l h (fun j => moves (.selfCmd j)) fun r v w hv => ?_
    exact related_ite .rfl (fun _ => returns _ _ _ _ (hv.setCtrl _)) fun _ => moves (.selfRead (.poll .p0)) v w hv
  | portCmd l =>
    refine cmdWrite_related l h (fun j => moves (.portCmd j)) fun r v w hv => ?_
    exact related_ite .rfl (fun _ => returns _ _ _ _ (hv.setCtrl _)) fun _ => moves (.portRead (.poll .p0)) v w hv
  | selfRead l =>
    refine readFromDevice_related l h (fun j => moves (.selfRead j)) fun r b v w hv => ?_
    refine related_ite .rfl (fun _ => returns _ _ _ _ (hv.setCtrl _)) fun _ => ?_
    exact related_ite .rfl (fun _ => returns _ _ _ _ (hv.setCtrl _)) fun _ => moves .i2 _ _ (hv.setCtrl _)
  | portRead l =>
    refine readFromDevice_related l h (fun j => moves (.portRead j)) fun r b v w hv => ?_
    refine related_ite .rfl (fun _ => returns _ _ _ _ (hv.setCtrl _)) fun _ => ?_
    exact related_ite .rfl (fun _ => returns _ _ _ _ (hv.setCtrl _)) fun _ =>
      moves (.enable (.poll .p0)) _ _ (hv.setCtrl _)
  | enable l =>
    refine cmdWrite_related l h (fun j => moves (.enable j)) fun r v w hv => ?_
    exact related_ite .rfl (fun _ => returns _ _ v w hv) fun _ => returns _ _ _ _ (hv.setCtrl _)

end

/-! ### The command protocol -/

/-- What two runs share at a label of `send_command`. -/
def sendKnown (l : SendPc) : Known := ⟨sendLive l, countersLive (.sendcmd l), false⟩

section
variable {bytes : List Byte} {rearm : Bool} {at_ : SendPc → Position} {ret : Status → Word32 → State → State}

/-- At `[s1]` both runs share `DL`, `IDX` and `RETRIES`; a success that re-arms the slot makes a new deadline. -/
theorem awaitAction_related (h : Alike (sendKnown .s1) s u) (stays : Related s u)
    (moves : ∀ j v w, j ≠ .s0 → Alike (sendKnown j) v w → Related (v.goto (at_ j)) (w.goto (at_ j)))
    (succeeds : ∀ x v w, Alike ⟨rearm, false, false⟩ v w → Related (ret .ok x v) (ret .ok x w))
    (fails : ∀ st x v w, st ≠ .ok → Alike ⟨false, false, false⟩ v w → Related (ret st x v) (ret st x w)) :
    Related (awaitAction bytes rearm at_ ret s) (awaitAction bytes rearm at_ ret u) := by
  obtain ⟨idx, retries⟩ := h.counters rfl
  have slot : u.ackState = s.ackState := h.same (·.ackState) fun _ => rfl
  have bound : u.par.maxRetries = s.par.maxRetries := h.same (·.par.maxRetries) fun _ => rfl
  have rest : Alike ⟨false, true, false⟩ (s.setAck .idle) (u.setAck .idle) := Alike.waited (h.setAck .idle)
  unfold awaitAction
  rw [slot]
  cases s.ackState with
  | idle => exact stays
  | timedOut => exact stays
  | pending =>
    refine related_ite (by rw [Alike.expired h]) (fun _ => ?_) fun _ => ?_
    · exact moves .s2 _ _ nofun (Alike.waited (h.setAck .timedOut))
    · exact moves .s1 _ _ nofun h
  | desync => exact moves .s3 _ _ nofun rest
  | acked =>
    refine related_ite (by rw [idx]) (fun _ => ?_) fun _ => ?_
    · cases rearm with
      | true => exact succeeds _ _ _ ((h.dead.setAck .pending).setDeadline (·.tBatMs))
      | false => exact succeeds _ _ _ (h.dead.setAck .idle)
    · refine moves (.write (.poll .p0)) _ _ nofun ⟨rest.others, nofun, fun _ => ⟨?_, rfl⟩, nofun⟩
      exact congrArg (· + 1) idx
  | resend =>
    refine related_ite (by rw [retries, bound]) (fun _ => ?_) fun _ => ?_
    · exact fails _ _ _ _ nofun (rest.latch _ _)
    · refine moves (.write (.poll .p0)) _ _ nofun ⟨rest.others, nofun, fun _ => ⟨idx, ?_⟩, nofun⟩
      exact congrArg (· + 1) retries

/-- Where the slot is to be re-armed, a latch must not answer in place of the command (R141, R161). -/
theorem sendCommand_related (l : SendPc) (h : Alike (sendKnown l) s u) (stays : Related s u)
    (fresh : l = .s0 → rearm = true → s.unresp = false)
    (moves : ∀ j v w, j ≠ .s0 → Alike (sendKnown j) v w → Related (v.goto (at_ j)) (w.goto (at_ j)))
    (succeeds : ∀ x v w, Alike ⟨rearm, false, false⟩ v w → Related (ret .ok x v) (ret .ok x w))
    (fails : ∀ st x v w, st ≠ .ok → Alike ⟨false, false, false⟩ v w → Related (ret st x v) (ret st x w)) :
    Related (sendCommand bytes rearm l at_ ret s) (sendCommand bytes rearm l at_ ret u) := by
  cases l with
  | s0 =>
    refine related_ite (by rw [h.same (·.unresp) fun _ => rfl]) (fun latched => ?_) fun _ => ?_
    · rw [h.same (·.latchStatus) fun _ => rfl, h.same (·.latchValue) fun _ => rfl]
      by_cases ok : s.latchStatus = .ok
      · have noRearm : rearm = false := by
          by_contra hr
          simp [fresh rfl (by simpa using hr)] at latched
        rw [ok]
        exact succeeds _ _ _ (noRearm ▸ h.dead)
      · exact fails _ _ _ _ ok h.dead
    · have begun : forget { u with idx := 0, retries := 0 } = forget { s with idx := 0, retries := 0 } := h.others
      exact moves (.write (.poll .p0)) _ _ nofun ⟨begun, nofun, fun _ => ⟨rfl, rfl⟩, nofun⟩
  | write l =>
    obtain ⟨idx, -⟩ := h.counters rfl
    rw [sendCommand, sendCommand, idx]
    refine writeToDevice_related l h (fun j v w => moves (.write j) v w nofun) (fun v w hv => ?_) fun v w hv => ?_
    · exact fails _ _ _ _ nofun (hv.latch _ _)
    · exact moves .s1 _ _ nofun hv
  | s1 => exact awaitAction_related h stays moves succeeds fails
  | s2 => exact fails _ _ _ _ nofun ((h.setAck .idle).latch _ _)
  | s3 => exact moves (.flush .f0) _ _ nofun h
  | flush l =>
    refine flush_related l h (fun j v w => moves (.flush j) v w nofun) fun r v w hv => ?_
    rw [hv.same (fun x => zext32 x.ackByte) fun _ => rfl]
    exact related_ite .rfl (fun _ => fails _ _ _ _ nofun (hv.latch _ _)) fun _ => fails _ _ _ _ nofun hv.dead

end

/-! ### The instructions -/

theorem batAction_related (h : Alike (knownAt (.kbdinit .b1)) s u) : Related (batAction s) (batAction u) := by
  have slot : u.ackState = s.ackState := h.same (·.ackState) fun _ => rfl
  have examined (a : AckState) : Related
      (if s.ackByte = 0xAA then (s.setAck a).goto (.kbdinit (.enable .s0)) else (s.setAck a).goto (.kbdinit .b3))
      (if u.ackByte = 0xAA then (u.setAck a).goto (.kbdinit (.enable .s0)) else (u.setAck a).goto (.kbdinit .b3)) :=
    related_ite (by rw [h.same (·.ackByte) fun _ => rfl])
      (fun _ => Alike.goto (h.setAck a).dead) fun _ => Alike.goto (h.setAck a).dead
  unfold batAction
  rw [slot]
  cases s.ackState with
  | pending =>
    refine related_ite (by rw [Alike.expired h]) (fun _ => ?_) fun _ => ?_
    · exact Alike.goto (h.setAck .timedOut).dead
    · exact Alike.goto h
  | _ => exact examined .idle

theorem kbdinitAction_related (l : KbdPc) (h : Alike (knownAt (.kbdinit l)) s u) (stays : Related s u) :
    Related (kbdinitAction l s) (kbdinitAction l u) := by
  cases l with
  | init l =>
    refine ps2Init_related l h (fun j v w hv => Alike.goto hv.latchAny) fun st x v w hv => ?_
    exact related_ite .rfl (fun _ => Alike.goto hv) fun _ => hv.respond _ _
  | reset l =>
    refine sendCommand_related l ⟨h.others, h.dl, h.counters, nofun⟩ stays ?_ (fun j v w hj hv => ?_)
      (fun x v w hv => ?_) fun st x v w failed hv => ?_
    · rintro rfl -
      exact h.unlatched rfl
    · exact Alike.goto ⟨hv.others, hv.dl, hv.counters, by simp [knownAt, unlatchedAt, initLabel, hj]⟩
    · exact Alike.goto (p := .kbdinit .b1) hv
    · exact related_ite .rfl (fun ok => absurd ok failed) fun _ => hv.respond _ _
  | enable l =>
    refine sendCommand_related l h stays nofun (fun j v w _ hv => Alike.goto hv) (fun x v w hv => hv.respond _ _)
      fun st x v w _ hv => hv.respond _ _
  | b1 => exact batAction_related h
  | b2 => exact ((h.setAck .idle).latch _ _).respond _ _
  | b3 => exact Alike.goto (p := .kbdinit (.flush .f0)) h
  | flush l =>
    refine flush_related l h (fun j v w hv => Alike.goto hv) fun r v w hv => ?_
    rw [hv.same (fun x => zext32 x.ackByte) fun _ => rfl]
    exact related_ite .rfl (fun _ => (hv.latch _ _).respond _ _) fun _ => hv.respond _ _

/-- The action at a position keeps two runs related, whichever instruction it belongs to. -/
theorem ActionAt.related {i : Instr} {g : State → State} (action : ActionAt i p g) (h : Alike (knownAt p) s u)
    (stays : Related s u) : Related (g s) (g u) := by
  cases action with
  | clkinit freq l =>
    cases l with
    | c1 => exact (h.map (clkinitConfigure freq) (fun _ => rfl) fun _ => rfl).goto (p := .clkinit .c2)
    | c2 =>
      exact Alike.goto
        (h.map (fun x => x.ioWrite x.par.portPitCh0 (x.divisor.extractLsb' 0 8)) (fun _ => rfl) fun _ => rfl)
    | c3 =>
      exact Alike.goto
        (h.map (fun x => x.ioWrite x.par.portPitCh0 (x.divisor.extractLsb' 8 8)) (fun _ => rfl) fun _ => rfl)
    | c4 => exact h.ends (clkinitAction freq .c4) (fun _ => rfl) fun _ => rfl
  | gettick => exact h.ends (fun x => x.respond .ok (tick32 x.tick)) (fun _ => rfl) fun _ => rfl
  | deadline ms => exact h.ends (fun x => x.respond .ok (tick32 (x.deadlineIn ms))) (fun _ => rfl) fun _ => rfl
  | expired d =>
    exact h.ends (fun x => x.respond .ok (if x.expired (d.toNat % x.modulus) then 1 else 0)) (fun _ => rfl)
      fun _ => rfl
  | sleep ms l =>
    cases l with
    | s0 => exact Alike.goto (p := .sleep .s1) (h.setDeadline fun _ => ms)
    | s1 =>
      exact related_ite (by rw [Alike.expired h]) (fun _ => h.respond _ _) fun _ => Alike.goto h
  | ps2wr byte l =>
    exact writeToDevice_related l h (fun j v w hv => Alike.goto hv) (fun v w hv => hv.respond _ _)
      fun v w hv => hv.respond _ _
  | ps2rd l => exact readFromDevice_related l h (fun j v w hv => Alike.goto hv) fun r b v w hv => hv.respond _ _
  | ps2flush l => exact flush_related l h (fun j v w hv => Alike.goto hv) fun r v w hv => hv.respond _ _
  | ps2cmd cmd l => exact cmdWrite_related l h (fun j v w hv => Alike.goto hv) fun r v w hv => hv.respond _ _
  | ps2init l =>
    exact ps2Init_related l h (fun j v w hv => Alike.goto hv.latchAny) fun st x v w hv => hv.respond _ _
  | sendcmd nargs arg1 arg0 opcode l =>
    exact sendCommand_related l h stays nofun (fun j v w _ hv => Alike.goto hv) (fun x v w hv => hv.respond _ _)
      fun st x v w _ hv => hv.respond _ _
  | scanpop =>
    refine h.ends scanpopAction (fun x => ?_) fun x => ?_
    · have queue : (forget x).scanq = x.scanq := rfl
      unfold scanpopAction
      rw [queue]
      cases x.scanq <;> rfl
    · unfold scanpopAction
      split <;> rfl
  | kbdinit l => exact kbdinitAction_related l h stays

/-! ### The step -/

/-- Nothing is live at the first label of an operation. -/
theorem knownAt_entryOf (i : Instr) : knownAt (entryOf i) = ⟨false, false, false⟩ := by
  cases i <;> rfl

/-- An event acts alike in both runs and leaves the locals (R182). -/
theorem exec_event_related {i : Instr} (hi : i = .advanceTick ∨ i = .kbdByte) (h : Related s u)
    (he : exec i s = .next t) : ∃ v, exec i u = .next v ∧ Related t v := by
  rcases hi with rfl | rfl
  · rw [exec_advanceTick, tickEvent_effect] at he
    cases he
    exact ⟨_, exec_advanceTick, h.map (fun x => x.takeEvent x.par.irqTimer advanceTickBody) (fun _ => rfl) fun _ => rfl⟩
  · have blind (x : State) : forget (x.takeEvent x.par.irqKbd kbdByteBody) =
        forget ((forget x).takeEvent (forget x).par.irqKbd kbdByteBody) := by
      rw [kbdEvent_effect, kbdEvent_effect]
      rfl
    have kept (x : State) : liveOf (x.takeEvent x.par.irqKbd kbdByteBody) = liveOf x := by
      rw [kbdEvent_effect]
      rfl
    have pos : t.pos = s.pos := (exec_event (.inr rfl) he).1
    cases he
    refine ⟨_, exec_kbdByte, ?_⟩
    rw [Related, pos]
    exact h.map (fun x => x.takeEvent x.par.irqKbd kbdByteBody) blind kept

/-- A request's action acts alike in both runs. -/
theorem exec_request_related {i : Instr} (hi : i ≠ .advanceTick ∧ i ≠ .kbdByte) (h : Related s u)
    (he : exec i s = .next t) : ∃ v, exec i u = .next v ∧ Related t v := by
  obtain ⟨p, g, hp, action, rfl, runs⟩ := exec_request_next hi he
  refine ⟨_, runs u (h.same (·.pos) fun _ => rfl), action.related ?_ h⟩
  by_cases idle : s.pos = .idle
  · have entry : p = entryOf i := by simpa [positionFor, idle] using hp.symm
    rw [entry, knownAt_entryOf]
    exact h.dead
  · rw [positionFor_busy idle hp]
    exact h

theorem exec_related {i : Instr} (h : Related s u) (he : exec i s = .next t) :
    ∃ v, exec i u = .next v ∧ Related t v := by
  by_cases hi : i = .advanceTick ∨ i = .kbdByte
  · exact exec_event_related hi h he
  · exact exec_request_related (not_or.1 hi) h he

theorem accept_related (h : Related s u) (w : Word40) : Related (s.accept w) (u.accept w) := by
  have latched : Related ({ s with req := w }.record (.req w)) ({ u with req := w }.record (.req w)) :=
    (h.map ({ · with req := w }) (fun _ => rfl) fun _ => rfl).map (·.record (.req w)) (fun _ => rfl) fun _ => rfl
  unfold State.accept
  cases decodeRequest w with
  | ok i => exact Alike.goto (knownAt_entryOf i ▸ latched.dead)
  | error e => exact latched.respond _ _

/-- Both turns are of the same kind, in related states. -/
inductive TurnsRelated : Turn → Turn → Prop
  | done {a b : State} (h : Related a b) : TurnsRelated (.done a) (.done b)
  | run {a b : State} (i : Instr) (h : Related a b) : TurnsRelated (.run i a) (.run i b)
  | lost : TurnsRelated .lost .lost

theorem sequencerTurn_related (h : Related s u) : TurnsRelated s.sequencerTurn u.sequencerTurn := by
  have pos : u.pos = s.pos := h.same (·.pos) fun _ => rfl
  have hostq : u.hostq = s.hostq := h.same (·.hostq) fun _ => rfl
  have req : u.req = s.req := h.same (·.req) fun _ => rfl
  unfold State.sequencerTurn
  rw [pos, hostq, req]
  split
  · cases s.hostq with
    | nil => exact .done h
    | cons w rest =>
      have taken : Related { s with hostq := rest } { u with hostq := rest } :=
        h.map ({ · with hostq := rest }) (fun _ => rfl) fun _ => rfl
      exact .done (accept_related taken w)
  · cases decodeRequest s.req with
    | ok i => exact .run i h
    | error e => exact .lost

theorem bothEvents_related (h : Related s u) (rest : List Input) :
    TurnsRelated (s.bothEvents rest) (u.bothEvents rest) := by
  have drawn (inputs : List Input) : Related { s with inputs := inputs, draws := s.draws + 1 }
      { u with inputs := inputs, draws := u.draws + 1 } :=
    h.map (fun x => { x with inputs := inputs, draws := x.draws + 1 }) (fun _ => rfl) fun _ => rfl
  have choice : Config.kbdFirst u.draws = Config.kbdFirst s.draws := h.same (Config.kbdFirst ·.draws) fun _ => rfl
  unfold State.bothEvents
  rw [choice]
  split
  · exact .run _ (drawn _)
  · exact .run _ (drawn _)

theorem eventTurn_related (h : Related s u) (w : EventWord) (rest : List Input) :
    TurnsRelated (s.eventTurn w rest) (u.eventTurn w rest) := by
  have sampled : Related { s with inputs := rest } { u with inputs := rest } :=
    h.map ({ · with inputs := rest }) (fun _ => rfl) fun _ => rfl
  unfold State.eventTurn
  split
  · exact sequencerTurn_related sampled
  · exact .run _ sampled
  · exact bothEvents_related h rest

theorem turn_related (h : Related s u) : TurnsRelated s.turn u.turn := by
  have inputs : u.inputs = s.inputs := h.same (·.inputs) fun _ => rfl
  unfold State.turn
  rw [inputs]
  cases s.inputs with
  | nil => exact sequencerTurn_related h
  | cons x rest =>
    cases x with
    | reset => exact .done (h.ends (fun x => { x with inputs := rest }.resetInput) (fun _ => rfl) fun _ => rfl)
    | ev w => exact eventTurn_related h w rest

/-- A step from related states leads to related states. -/
theorem step_related (h : Related s u) (hs : step s = .next t) : ∃ v, step u = .next v ∧ Related t v := by
  have turns := turn_related h
  unfold step at hs ⊢
  generalize s.turn = a at turns hs
  generalize u.turn = b at turns ⊢
  cases turns with
  | done after =>
    cases hs
    exact ⟨_, rfl, after⟩
  | run i before => exact exec_related before hs
  | lost => cases hs

/-! ### The run -/

theorem run_succ {M : Host.Core} {n : Nat} {a b : M.State} (h : M.step a = .next b) : M.run (n + 1) a = M.run n b := by
  rw [Host.Core.run, h]

/-- A run that goes on took a first step. -/
theorem run_succ_next {M : Host.Core} {n : Nat} {a c : M.State} (h : M.run (n + 1) a = .next c) :
    ∃ b, M.step a = .next b ∧ M.run n b = .next c := by
  cases hs : M.step a with
  | next b => exact ⟨b, rfl, run_succ hs ▸ h⟩
  | fault r =>
    rw [Host.Core.run, hs] at h
    cases h
  | refused r =>
    rw [Host.Core.run, hs] at h
    cases h

/-- Any number of steps from related states leads to related states. -/
theorem run_related (n : Nat) (h : Related s u) (hs : Sys2Proof.core.run n s = .next t) :
    ∃ v, Sys2Proof.core.run n u = .next v ∧ Related t v := by
  induction n generalizing s u with
  | zero =>
    cases hs
    exact ⟨u, rfl, h⟩
  | succ n ih =>
    obtain ⟨x, hx, hrun⟩ := run_succ_next hs
    obtain ⟨y, hy, after⟩ := step_related h hx
    obtain ⟨v, hv, related⟩ := ih after hrun
    exact ⟨v, (run_succ (M := Sys2Proof.core) hy).trans hv, related⟩

end Sys2Proof.Safety
end

section
/-! The obligation on the locals left unspecified. -/

namespace Sys2Proof.Scope

open Sys2Proof.Machine Sys2Proof.Safety

/-- Settles O60: nothing is live in an idle block, so its states are related whatever their locals. -/
theorem unspecifiedLocalsAreNeverRead : Obligations.UnspecifiedLocalsAreNeverRead := by
  intro n s a dl cur idx retries sreg hp hs
  have start : Related s (withLocals s dl cur idx retries sreg) := by
    rw [Related, hp]
    exact ⟨rfl, nofun, nofun, nofun⟩
  obtain ⟨v, hv, h⟩ := run_related n start hs
  have others : withLocals (forget v) v.dl v.cur v.idx v.retries v.sreg =
      withLocals (forget a) v.dl v.cur v.idx v.retries v.sreg := by rw [h.others]
  exact ⟨_, _, _, _, _, hv.trans (congrArg _ others)⟩

end Sys2Proof.Scope
end

section
/-! SUPPORT. Runs: one after the other, and runs of one instruction with tick events between its actions. -/

namespace Sys2Proof.Safety

open Sys2Proof.Machine

variable {s t u : State} {i : Instr}

/-- An action, then the rest of the run. -/
theorem Runs.cons {is : List Instr} (first : exec i s = .next u) (rest : Runs is u t) : Runs (i :: is) s t :=
  ⟨u, first, rest⟩

/-- Two runs, one after the other. -/
theorem Runs.append {is js : List Instr} (first : Runs is s u) (rest : Runs js u t) : Runs (is ++ js) s t := by
  induction is generalizing s with
  | nil =>
    cases first
    exact rest
  | cons j is ih =>
    obtain ⟨v, hv, first⟩ := first
    exact .cons hv (ih first)

/-- `s` after a tick event. -/
def ticked (s : State) : State := s.takeEvent s.par.irqTimer advanceTickBody

/-- Actions of `i` with tick events between them, in any order: if `P n k` says what holds while `n` actions and `k`
ticks are to come, and an action and a tick each lead from one such state to the next, then the run goes through. -/
theorem runs_interleaved {P : Nat → Nat → State → Prop} (hi : i ≠ .advanceTick)
    (tick : ∀ n k s, P n (k + 1) s → P n k (ticked s))
    (action : ∀ n k s, P (n + 1) k s → ∃ u, exec i s = .next u ∧ P n k u)
    {n : Nat} {is : List Instr} (schedule : Ticked i n is) (start : P n (is.count .advanceTick) s) :
    ∃ t, Runs is s t ∧ P 0 0 t := by
  obtain ⟨only, rfl⟩ := schedule
  induction is generalizing s with
  | nil => exact ⟨s, rfl, start⟩
  | cons j is ih =>
    have next {u : State} (first : exec j s = .next u) (hu : P (is.count i) (is.count .advanceTick) u) :
        ∃ t, Runs (j :: is) s t ∧ P 0 0 t := by
      obtain ⟨t, rest, ht⟩ := ih (fun j hj => only j (List.mem_cons_of_mem _ hj)) hu
      exact ⟨t, .cons first rest, ht⟩
    obtain rfl | rfl := only j List.mem_cons_self
    · rw [List.count_cons_self, List.count_cons_of_ne hi] at start
      obtain ⟨u, first, hu⟩ := action _ _ _ start
      exact next first hu
    · rw [List.count_cons_self, List.count_cons_of_ne hi.symm] at start
      exact next exec_advanceTick (tick _ _ _ start)

end Sys2Proof.Safety
end

section
/-! SUPPORT. A deadline with some ticks to go (R100, R102). -/

namespace Sys2Proof.Safety

open Sys2Proof.Machine

variable {s : State} {m : Nat}

/-- The deadline of the wait in progress is `m` ticks ahead. -/
def TicksToGo (m : Nat) (s : State) : Prop := s.dl = (s.tick + m) % s.modulus

/-- A deadline just made is `delta` ticks ahead. -/
theorem ticksToGo_setDeadline (s : State) (ms : Word32) : TicksToGo (s.delta ms) (s.setDeadline ms) := rfl

/-- A tick brings the deadline one tick nearer. -/
theorem TicksToGo.ticked (h : TicksToGo (m + 1) s) : TicksToGo m (ticked s) := by
  have next : s.dl = ((s.tick + 1) % s.modulus + m) % s.modulus := by
    rw [Nat.mod_add_mod, Nat.add_right_comm, Nat.add_assoc]
    exact h
  exact next

/-- `2^W` is twice the window of the comparator (R107). -/
theorem modulus_eq (h : s.par.Ok) : s.modulus = 2 ^ (s.par.width - 1) + 2 ^ (s.par.width - 1) := by
  obtain ⟨width, -⟩ := h
  rw [State.modulus, ← Nat.two_mul, ← Nat.pow_succ']
  congr 1
  omega

/-- A deadline ahead, inside the window of the comparator, has not expired (R107). -/
theorem TicksToGo.not_expired (h : TicksToGo m s) (ok : s.par.Ok) (ahead : 0 < m)
    (window : m ≤ 2 ^ (s.par.width - 1)) : s.expired s.dl = false := by
  have modulus := modulus_eq ok
  have since : s.sinceDeadline s.dl = s.modulus - m := by
    have quotient := Nat.div_add_mod (s.tick + m) s.modulus
    have bound : (s.tick + m) % s.modulus < s.modulus := Nat.mod_lt _ (by omega)
    have passed : s.tick + (s.modulus - (s.tick + m) % s.modulus) =
        s.modulus - m + s.modulus * ((s.tick + m) / s.modulus) := by omega
    rw [State.sinceDeadline, h, Nat.mod_mod, passed, Nat.add_mul_mod_self_left, Nat.mod_eq_of_lt (by omega)]
  rw [State.expired, since, decide_eq_false_iff_not]
  omega

end Sys2Proof.Safety
end

section
/-! SUPPORT. The status poll (R115) wherever it stands, and its whole run while the deadline is ahead. -/

namespace Sys2Proof.Safety

open Sys2Proof.Machine

variable {s t u : State} {i : Instr} {at_ : PollPc → Position} {done : Position} {bit : Nat} {want : Bool}

/-! ### Byte values -/

/-- A byte zero-extended to a value is the byte under 24 zero bits (R78). -/
theorem zext32_eq (b : Byte) : zext32 b = (0 : BitVec 24) ++ b := by
  unfold zext32
  simpa using BitVec.setWidth_eq_append (x := b) (w := 32) (by decide)

/-- The response `(Ok, b)` of a byte. -/
theorem respond_byte (s : State) (b : Byte) : s.respond .ok (zext32 b) =
    { s with
      rsp := 0x00#8 ++ (0 : BitVec 24) ++ b, pos := .idle, trace := .rsp .ok ((0 : BitVec 24) ++ b) :: s.trace } := by
  have response : responseWord .ok ((0 : BitVec 24) ++ b) = 0x00#8 ++ (0 : BitVec 24) ++ b := by
    rw [BitVec.append_assoc]
    rfl
  rw [zext32_eq, State.respond, response]
  rfl

/-! ### Reads with an answer lined up -/

/-- The status byte lined up is read. -/
theorem readStatus_lined {st : Byte} {rest : List Byte} (h : s.envq = st :: rest) :
    s.readStatus = { s with sreg := st, envq := rest, trace := .ioR s.par.portPs2StCmd st :: s.trace } := by
  ext1 <;> simp [h, envAnswer_cons h]

/-- The data byte lined up is read. -/
theorem readData_lined {b : Byte} {rest : List Byte} (h : s.envq = b :: rest) :
    s.readData = { s with cur := b, envq := rest, trace := .ioR s.par.portPs2Data b :: s.trace } := by
  ext1 <;> simp [h, envAnswer_cons h]

/-! ### The poll -/

/-- The sequencer stands at label `l` of the poll, or is idle and the poll's first label is where `i` begins. -/
def StandsAt (i : Instr) (at_ : PollPc → Position) (l : PollPc) (s : State) : Prop :=
  s.pos = at_ l ∨ (s.pos = .idle ∧ entryOf i = at_ .p0 ∧ l = .p0)

/-- `i` polls the status port at the labels `at_` until bit `bit` of the byte read is `want`, and then stands at
`done` (R115). -/
structure Polls (i : Instr) (at_ : PollPc → Position) (done : Position) (bit : Nat) (want : Bool) : Prop where
  begins : ∀ s, StandsAt i at_ .p0 s → exec i s = .next ((s.setDeadline s.par.tPollMs).goto (at_ .p1))
  met : ∀ s, s.pos = at_ .p1 → (s.envAnswer s.par.portPs2StCmd).getLsbD bit = want →
    exec i s = .next (s.readStatus.goto done)
  unmet : ∀ s, s.pos = at_ .p1 → (s.envAnswer s.par.portPs2StCmd).getLsbD bit ≠ want →
    exec i s = .next (s.readStatus.goto (at_ .p2))
  again : ∀ s, s.pos = at_ .p2 → s.expired s.dl = false → exec i s = .next (s.goto (at_ .p1))

/-- What runs `poll_wait` and goes on at `done` polls. -/
theorem polls_of_pollWait {mask value : Byte} {ret : Status → State → State}
    (runs : ∀ l s, StandsAt i at_ l s → exec i s = .next (pollWait mask value s.par.tPollMs l at_ ret s))
    (condition : ∀ b : Byte, b &&& mask = value ↔ b.getLsbD bit = want)
    (returns : ∀ s, ret .ok s = s.goto done) : Polls i at_ done bit want where
  begins s at0 := runs .p0 s at0
  met s at1 ready := by
    rw [runs .p1 s (.inl at1), pollWait, State.readStatus_sreg, if_pos ((condition _).2 ready), returns]
  unmet s at1 busy := by
    rw [runs .p1 s (.inl at1), pollWait, State.readStatus_sreg, if_neg (mt (condition _).1 busy)]
  again s at2 waits := by
    rw [runs .p2 s (.inl at2), pollWait, waits, if_neg Bool.false_ne_true]

theorem polls_ps2wr (byte : Byte) : Polls (.ps2wr byte) (fun l => .ps2wr (.poll l)) (.ps2wr .w1) 1 false := by
  refine polls_of_pollWait (ret := fun r s => if r = .timeout then s.respond .timeout 0 else s.goto (.ps2wr .w1))
    (fun l s h => ?_) inputBufferClear_iff fun _ => rfl
  rcases h with h | ⟨h, -, rfl⟩
  · exact exec_ps2wr byte h
  · exact exec_ps2wr_begin byte (.inl h)

theorem polls_ps2rd : Polls .ps2rd (fun l => .ps2rd (.poll l)) (.ps2rd .r1) 0 true := by
  refine polls_of_pollWait
    (ret := fun r s => if r = .timeout then s.respond .timeout (zext32 0) else s.goto (.ps2rd .r1)) (fun l s h => ?_) outputBufferFull_iff fun _ => rfl
  rcases h with h | ⟨h, -, rfl⟩
  · exact exec_ps2rd h
  · exact exec_ps2rd_begin (.inl h)

theorem polls_ps2cmd (cmd : Byte) : Polls (.ps2cmd cmd) (fun l => .ps2cmd (.poll l)) (.ps2cmd .k1) 1 false := by
  refine polls_of_pollWait (ret := fun r s => if r = .timeout then s.respond .timeout 0 else s.goto (.ps2cmd .k1))
    (fun l s h => ?_) inputBufferClear_iff fun _ => rfl
  rcases h with h | ⟨h, -, rfl⟩
  · exact exec_ps2cmd cmd h
  · exact exec_ps2cmd_begin cmd (.inl h)

/-- An operation that begins with a poll stands at the poll when it can begin. -/
theorem standsAt_of_ready (ready : Ready i s) (entry : entryOf i = at_ .p0) : StandsAt i at_ .p0 s :=
  ready.symm.imp (·.trans entry) (⟨·, entry, rfl⟩)

/-! ### The condition met at the first read -/

/-- `s` after a poll that found its condition met at the first read, of the byte `st`. -/
def polled (s : State) (st : Byte) (rest : List Byte) (done : Position) : State :=
  { s with
    dl := s.deadlineIn s.par.tPollMs, sreg := st, envq := rest, pos := done,
    trace := .ioR s.par.portPs2StCmd st :: s.trace }

/-- With its condition met at the first read a poll is two actions: the deadline, and that read. -/
theorem Polls.runs_atOnce (polls : Polls i at_ done bit want) {st : Byte} {rest : List Byte}
    (at0 : StandsAt i at_ .p0 s) (answers : s.envq = st :: rest) (ready : st.getLsbD bit = want) :
    Runs [i, i] s (polled s st rest done) := by
  have lined : ((s.setDeadline s.par.tPollMs).goto (at_ .p1)).envq = st :: rest := answers
  have read := polls.met _ rfl (by rwa [envAnswer_cons lined])
  rw [readStatus_lined lined] at read
  exact .cons (polls.begins s at0) (.cons read rfl)

/-! ### Busy reads and ticks -/

/-- The bytes lined up are those of the poll to come: `busy`, which do not meet the condition, `st`, which does, and
`rest`, which it does not read. Once all are read, the port accesses of the history will be `accesses`. -/
structure Lined (bit : Nat) (want : Bool) (busy : List Byte) (st : Byte) (rest : List Byte)
    (accesses : List TraceEvent) (s : State) : Prop where
  answers : s.envq = busy ++ st :: rest
  unready : ∀ b ∈ busy, b.getLsbD bit ≠ want
  ready : st.getLsbD bit = want
  history : ((busy ++ [st]).map (.ioR s.par.portPs2StCmd)).reverse ++ s.trace.filter isPortAccess = accesses

/-- The poll's deadline stays ahead, inside the comparator's window, for `k` more ticks. -/
def Ahead (k : Nat) (s : State) : Prop :=
  s.par.Ok ∧ ∃ m, TicksToGo m s ∧ k < m ∧ m ≤ 2 ^ (s.par.width - 1)

/-- Where a poll is that still has `n` actions and `k` ticks to come. -/
inductive PollProgress (i : Instr) (at_ : PollPc → Position) (done : Position) (bit : Nat) (want : Bool) (st : Byte)
    (rest : List Byte) (accesses : List TraceEvent) : Nat → Nat → State → Prop
  | begins {busy k s} (pos : StandsAt i at_ .p0 s) (lined : Lined bit want busy st rest accesses s) (ok : s.par.Ok)
      (few : k < s.delta s.par.tPollMs) (window : s.delta s.par.tPollMs ≤ 2 ^ (s.par.width - 1)) :
      PollProgress i at_ done bit want st rest accesses (2 * busy.length + 2) k s
  | reads {busy k s} (pos : s.pos = at_ .p1) (lined : Lined bit want busy st rest accesses s) (ahead : Ahead k s) :
      PollProgress i at_ done bit want st rest accesses (2 * busy.length + 1) k s
  | tests {busy k s} (pos : s.pos = at_ .p2) (lined : Lined bit want busy st rest accesses s) (ahead : Ahead k s) :
      PollProgress i at_ done bit want st rest accesses (2 * busy.length + 2) k s
  | ends {k s} (pos : s.pos = done) (answers : s.envq = rest) (history : s.trace.filter isPortAccess = accesses) :
      PollProgress i at_ done bit want st rest accesses 0 k s

section
variable {busy rest : List Byte} {b st : Byte} {accesses : List TraceEvent} {n k : Nat}

theorem Lined.ticked (h : Lined bit want busy st rest accesses s) : Lined bit want busy st rest accesses (ticked s) :=
  ⟨h.answers, h.unready, h.ready, h.history⟩

theorem Ahead.ticked (h : Ahead (k + 1) s) : Ahead k (ticked s) := by
  obtain ⟨ok, _ | m, dl, few, window⟩ := h
  · exact absurd few (Nat.not_lt_zero _)
  · exact ⟨ok, m, dl.ticked, Nat.lt_of_succ_lt_succ few, Nat.le_of_succ_le window⟩

theorem Ahead.not_expired (h : Ahead k s) : s.expired s.dl = false := by
  obtain ⟨ok, m, dl, few, window⟩ := h
  exact dl.not_expired ok (Nat.zero_lt_of_lt few) window

/-- A read takes the first of the bytes lined up. -/
theorem Lined.readStatus (h : Lined bit want (b :: busy) st rest accesses s) (p : Position) :
    Lined bit want busy st rest accesses (s.readStatus.goto p) := by
  obtain ⟨answers, unready, ready, history⟩ := h
  rw [readStatus_lined answers]
  refine ⟨rfl, fun c hc => unready c (List.mem_cons_of_mem _ hc), ready, ?_⟩
  simpa [State.goto, isPortAccess, List.filter_cons] using history

/-- A tick between two actions leaves the poll where it is. -/
theorem PollProgress.ticked (h : PollProgress i at_ done bit want st rest accesses n (k + 1) s) :
    PollProgress i at_ done bit want st rest accesses n k (ticked s) := by
  cases h with
  | begins pos lined ok few window => exact .begins pos lined.ticked ok (Nat.lt_of_succ_lt few) window
  | reads pos lined ahead => exact .reads pos lined.ticked ahead.ticked
  | tests pos lined ahead => exact .tests pos lined.ticked ahead.ticked
  | ends pos answers history => exact .ends pos answers history

/-- An action of the poll makes the deadline, reads afresh, finds the deadline ahead, or reads the byte it waits for. -/
theorem PollProgress.action (polls : Polls i at_ done bit want)
    (h : PollProgress i at_ done bit want st rest accesses (n + 1) k s) :
    ∃ u, exec i s = .next u ∧ PollProgress i at_ done bit want st rest accesses n k u := by
  generalize hm : n + 1 = m at h
  cases h with
  | begins pos lined ok few window =>
    obtain rfl := Nat.succ.inj hm
    refine ⟨_, polls.begins s pos, .reads rfl ⟨lined.answers, lined.unready, lined.ready, lined.history⟩ ?_⟩
    exact ⟨ok, _, ticksToGo_setDeadline s _, few, window⟩
  | @reads busy _ _ pos lined ahead =>
    obtain rfl := Nat.succ.inj hm
    cases busy with
    | nil =>
      have answer := envAnswer_cons lined.answers s.par.portPs2StCmd
      refine ⟨_, polls.met s pos (answer ▸ lined.ready), .ends rfl ?_ ?_⟩
      · simp [lined.answers]
      · simpa [isPortAccess, answer, List.filter_cons] using lined.history
    | cons b busy =>
      have answer := envAnswer_cons lined.answers s.par.portPs2StCmd
      refine ⟨_, polls.unmet s pos (answer ▸ lined.unready b List.mem_cons_self), ?_⟩
      exact .tests rfl (lined.readStatus _) ahead
  | tests pos lined ahead =>
    obtain rfl := Nat.succ.inj hm
    refine ⟨_, polls.again s pos ahead.not_expired, .reads rfl ?_ ahead⟩
    exact ⟨lined.answers, lined.unready, lined.ready, lined.history⟩
  | ends => cases hm

/-- The whole poll, with ticks between its actions: every busy byte is read and tested, then the one waited for. -/
theorem Polls.runs_untilReady (polls : Polls i at_ done bit want) (hi : i ≠ .advanceTick) {is : List Instr}
    (at0 : StandsAt i at_ .p0 s) (ok : s.par.Ok) (answers : s.envq = busy ++ st :: rest)
    (unready : ∀ b ∈ busy, b.getLsbD bit ≠ want) (ready : st.getLsbD bit = want)
    (window : s.delta s.par.tPollMs ≤ 2 ^ (s.par.width - 1))
    (few : is.count .advanceTick < s.delta s.par.tPollMs) (schedule : Ticked i (2 * busy.length + 2) is) :
    ∃ t, Runs is s t ∧ t.pos = done ∧ t.envq = rest ∧
      t.trace.filter isPortAccess =
        ((busy ++ [st]).map (.ioR s.par.portPs2StCmd)).reverse ++ s.trace.filter isPortAccess := by
  obtain ⟨t, runs, finished⟩ := runs_interleaved
    (P := PollProgress i at_ done bit want st rest
      (((busy ++ [st]).map (.ioR s.par.portPs2StCmd)).reverse ++ s.trace.filter isPortAccess))
    hi (fun _ _ _ h => h.ticked) (fun _ _ _ h => h.action polls) schedule
    (.begins at0 ⟨answers, unready, ready, rfl⟩ ok few window)
  generalize hn : (0 : Nat) = n at finished
  cases finished with
  | ends pos answers history => exact ⟨t, runs, pos, answers, history⟩
  | _ => cases hn

end

end Sys2Proof.Safety
end

section
/-! The obligations of the family: `PS2WR`, `PS2RD`, `PS2CMD` and their status poll. -/

namespace Sys2Proof.Scope

open Sys2Proof.Machine Sys2Proof.Safety

/-- Settles O24: the poll, then the write of `[w1]`. -/
theorem ps2wrSendsByte : Obligations.Ps2wrSendsByte := fun byte _ _ _ ready answers free =>
  ((polls_ps2wr byte).runs_atOnce (standsAt_of_ready ready rfl) answers free).append
    (.cons (exec_ps2wr byte rfl) rfl)

/-- Settles O25: the poll, then the read of `[r1]`, whose byte is the value answered. -/
theorem ps2rdReadsByte : Obligations.Ps2rdReadsByte := by
  intro st b rest s ready answers full
  have read := exec_ps2rd (s := polled s st (b :: rest) (.ps2rd .r1)) rfl
  rw [readFromDevice, readData_lined rfl, respond_byte] at read
  exact (polls_ps2rd.runs_atOnce (standsAt_of_ready ready rfl) answers full).append (.cons read rfl)

/-- Settles O26: the poll, then the write of `[k1]`. -/
theorem ps2cmdWritesCommand : Obligations.Ps2cmdWritesCommand := fun cmd _ _ _ ready answers free =>
  ((polls_ps2cmd cmd).runs_atOnce (standsAt_of_ready ready rfl) answers free).append
    (.cons (exec_ps2cmd cmd rfl) rfl)

/-- Settles O27: each of the three polls runs until the byte it waits for. -/
theorem pollReadsUntilReady : Obligations.PollReadsUntilReady := by
  intro busy st rest is s ok _ answers window few
  refine ⟨fun byte start schedule full free => ?_, fun start schedule empty full => ?_,
    fun cmd start schedule full free => ?_⟩
  · exact (polls_ps2wr byte).runs_untilReady nofun (standsAt_of_ready start rfl) ok answers (by simpa using full)
      free window few schedule
  · exact polls_ps2rd.runs_untilReady nofun (standsAt_of_ready start rfl) ok answers (by simpa using empty)
      full window few schedule
  · exact (polls_ps2cmd cmd).runs_untilReady nofun (standsAt_of_ready start rfl) ok answers (by simpa using full)
      free window few schedule

end Sys2Proof.Scope
end

section
/-! SUPPORT. How an action depends on what the environment has lined up (R61, log 4): it reads no port, or it reads one
byte and depends on that byte alone. -/

namespace Sys2Proof.Safety

open Sys2Proof.Machine

variable {s t : State} {p : Position}

/-- `s` with other bytes lined up and another number of free values drawn. -/
def withEnv (s : State) (answers : List Byte) (draws : Nat) : State := { s with envq := answers, draws := draws }

/-- `f` neither reads nor writes what the environment has lined up and the number of draws. -/
def EnvBlind (f : State → State) : Prop :=
  ∀ (s : State) (answers : List Byte) (draws : Nat), f (withEnv s answers draws) = withEnv (f s) answers draws

/-- `f` makes at most one port read, and depends on the environment by the byte read alone. -/
inductive ReadsAtMostOnce (f : State → State) : Prop
  | never (blind : EnvBlind f)
  | once (port : Config.Params → Port) (g : Byte → State → State) (blind : ∀ b, EnvBlind (g b))
      (reads : ∀ s, f s = g (s.envAnswer (port s.par)) s.afterAnswer)

section
variable {f g : State → State}

theorem EnvBlind.comp (hg : EnvBlind g) (hf : EnvBlind f) : EnvBlind fun s => g (f s) := by
  intro s answers draws
  change g (f _) = withEnv (g (f s)) _ _
  rw [hf, hg]

/-- A branch on a condition that does not depend on the environment. -/
theorem EnvBlind.ite {c : State → Prop} [DecidablePred c] (hf : EnvBlind f) (hg : EnvBlind g)
    (same : ∀ s answers draws, c (withEnv s answers draws) = c s := by intros; rfl) :
    EnvBlind fun s => if c s then f s else g s := by
  intro s answers draws
  simp only [same]
  split
  · exact hf s answers draws
  · exact hg s answers draws

/-- A branch on a condition that does not depend on the state. -/
theorem EnvBlind.branch {C : Prop} [Decidable C] (hf : EnvBlind f) (hg : EnvBlind g) :
    EnvBlind fun s => if C then f s else g s :=
  .ite (c := fun _ => C) hf hg

/-- An update that takes a value of the state, which does not depend on the environment. -/
theorem EnvBlind.value {α : Type} {k : α → State → State} {v : State → α} (hk : ∀ x, EnvBlind (k x)) (hf : EnvBlind f)
    (same : ∀ s answers draws, v (withEnv s answers draws) = v s := by intros; rfl) :
    EnvBlind fun s => k (v s) (f s) := by
  intro s answers draws
  change k (v _) (f _) = withEnv (k (v s) (f s)) _ _
  rw [same, hf, hk]

theorem EnvBlind.keeps_draws (h : EnvBlind f) (s : State) : (f s).draws = s.draws := by
  have same : f s = withEnv (f s) s.envq s.draws := h s s.envq s.draws
  rw [same]
  rfl

theorem blind_id : EnvBlind fun s => s := fun _ _ _ => rfl
theorem blind_goto (p : Position) : EnvBlind (·.goto p) := fun _ _ _ => rfl
theorem blind_respond (st : Status) (v : Word32) : EnvBlind (·.respond st v) := fun _ _ _ => rfl

/-- A read of the status port, and what follows depends on `S`. -/
theorem readsStatus (h : EnvBlind f) : ReadsAtMostOnce fun s => f s.readStatus :=
  .once (·.portPs2StCmd) (fun b s => f { s.record (.ioR s.par.portPs2StCmd b) with sreg := b })
    (fun _ => h.comp fun _ _ _ => rfl) fun _ => rfl

/-- A read of the data port, and what follows depends on the byte. -/
theorem readsData {k : Byte → State → State} (h : ∀ b, EnvBlind (k b)) :
    ReadsAtMostOnce fun s => k s.readData.cur s.readData :=
  .once (·.portPs2Data) (fun b s => k b { s.record (.ioR s.par.portPs2Data b) with cur := b })
    (fun b => (h b).comp fun _ _ _ => rfl) fun _ => rfl

/-- With nothing lined up, an action draws no free value and is as with any byte lined up, or it draws one and is as
with that byte lined up. -/
theorem ReadsAtMostOnce.unanswered (h : ReadsAtMostOnce f) (empty : s.envq = []) :
    ((f s).draws = s.draws ∧ ∀ b : Byte, f { s with envq := [b] } = { f s with envq := [b] }) ∨
    ((f s).draws = s.draws + 1 ∧ ∃ b : Byte, f { s with envq := [b] } = { f s with draws := s.draws }) := by
  cases h with
  | never blind =>
    have draws := blind.keeps_draws s
    refine .inl ⟨draws, fun b => ?_⟩
    have lined : f { s with envq := [b] } = withEnv (f s) [b] s.draws := blind s [b] s.draws
    rw [lined, withEnv, ← draws]
  | once port g blind reads =>
    have free : s.afterAnswer = withEnv s [] (s.draws + 1) := by simp [State.afterAnswer, withEnv, empty]
    have drawn := reads s
    rw [free, blind] at drawn
    refine .inr ⟨by rw [drawn]; rfl, s.envAnswer (port s.par), ?_⟩
    have lined : f { s with envq := [s.envAnswer (port s.par)] } =
        g (s.envAnswer (port s.par)) (withEnv s [] s.draws) := reads _
    rw [lined, blind, drawn]
    rfl

end

/-! ### The micro-routines -/

theorem pollWait_reads {mask want : Byte} {ms : Config.Params → Word32} {at_ : PollPc → Position}
    {ret : Status → State → State} (l : PollPc) (returns : ∀ r, EnvBlind (ret r)) :
    ReadsAtMostOnce fun s => pollWait mask want (ms s.par) l at_ ret s := by
  cases l with
  | p0 => exact .never fun _ _ _ => rfl
  | p1 => exact readsStatus (.ite (c := fun s => s.sreg &&& mask = want) (returns _) (blind_goto _))
  | p2 => exact .never (.ite (returns _) (blind_goto _))

theorem writeToDevice_reads {b : State → Byte} {arm : Bool} {at_ : WritePc → Position} {ret : Status → State → State}
    (l : WritePc) (returns : ∀ r, EnvBlind (ret r))
    (byte : ∀ s answers draws, b (withEnv s answers draws) = b s := by intros; rfl) :
    ReadsAtMostOnce fun s => writeToDevice (b s) arm l at_ ret s := by
  cases l with
  | poll l =>
    unfold writeToDevice
    exact pollWait_reads (ms := (·.tPollMs)) l fun _ => .branch (returns _) (blind_goto _)
  | w1 =>
    have writes : EnvBlind fun s => s.ioWrite s.par.portPs2Data (b s) :=
      .value (k := fun x s => s.ioWrite s.par.portPs2Data x) (fun _ _ _ _ => rfl) blind_id byte
    have arms : EnvBlind fun s => s.arm s.par.tAckMs := fun _ _ _ => rfl
    cases arm with
    | true => exact .never ((returns .ok).comp (arms.comp writes))
    | false => exact .never ((returns .ok).comp writes)

theorem readFromDevice_reads {at_ : ReadPc → Position} {ret : Status → Byte → State → State} (l : ReadPc)
    (returns : ∀ r b, EnvBlind (ret r b)) : ReadsAtMostOnce fun s => readFromDevice l at_ ret s := by
  cases l with
  | poll l =>
    unfold readFromDevice
    exact pollWait_reads (ms := (·.tPollMs)) l fun _ => .branch (returns _ _) (blind_goto _)
  | r1 => exact readsData (returns .ok)

theorem cmdWrite_reads {c : Byte} {at_ : CmdPc → Position} {ret : Status → State → State} (l : CmdPc)
    (returns : ∀ r, EnvBlind (ret r)) : ReadsAtMostOnce fun s => cmdWrite c l at_ ret s := by
  cases l with
  | poll l =>
    unfold cmdWrite
    exact pollWait_reads (ms := (·.tPollMs)) l fun _ => .branch (returns _) (blind_goto _)
  | k1 => exact .never ((returns .ok).comp fun _ _ _ => rfl)

theorem flush_reads {at_ : FlushPc → Position} {ret : Status → State → State} (l : FlushPc)
    (returns : ∀ r, EnvBlind (ret r)) : ReadsAtMostOnce fun s => flush l at_ ret s := by
  cases l with
  | f0 => exact .never fun _ _ _ => rfl
  | f1 => exact readsStatus (.ite (c := fun s => s.sreg.getLsbD 0 = true) (blind_goto _) (returns _))
  | f2 => exact .never (.ite (returns _) (blind_goto _))
  | f3 => exact readsData fun _ => blind_goto _

theorem ps2Init_reads {at_ : InitPc → Position} {ret : Status → Word32 → State → State} (l : InitPc)
    (returns : ∀ st v, EnvBlind (ret st v)) : ReadsAtMostOnce fun s => ps2Init l at_ ret s := by
  have ctrl (c : CtrlState) {f : State → State} (h : EnvBlind f) : EnvBlind fun s => f (s.setCtrl c) :=
    h.comp fun _ _ _ => rfl
  cases l <;> unfold ps2Init
  case i0 | i1 | i2 => exact .never fun _ _ _ => rfl
  case flush l => exact flush_reads l fun _ => .branch (returns _ _) (blind_goto _)
  case selfCmd l | portCmd l => exact cmdWrite_reads l fun _ => .branch (ctrl _ (returns _ _)) (blind_goto _)
  case selfRead l | portRead l =>
    refine readFromDevice_reads l fun _ _ => .branch (ctrl _ (returns _ _)) ?_
    exact .branch (ctrl _ (returns _ _)) (ctrl _ (blind_goto _))
  case enable l => exact cmdWrite_reads l fun _ => .branch (returns _ _) (ctrl _ (returns _ _))

/-- `[s1]` reads no port. -/
theorem awaitAction_blind {bytes : List Byte} {rearm : Bool} {at_ : SendPc → Position}
    {ret : Status → Word32 → State → State} (returns : ∀ st v, EnvBlind (ret st v)) :
    EnvBlind (awaitAction bytes rearm at_ ret) := by
  intro s answers draws
  have slot : (withEnv s answers draws).ackState = s.ackState := rfl
  unfold awaitAction
  rw [slot]
  cases s.ackState with
  | idle | timedOut | desync => rfl
  | pending =>
    have tests : EnvBlind fun s => if s.expired s.dl then (s.setAck .timedOut).goto (at_ .s2) else s.goto (at_ .s1) :=
      .ite (fun _ _ _ => rfl) (blind_goto _)
    exact tests s answers draws
  | acked =>
    have rearms : EnvBlind fun s => if rearm then ret .ok 0 (s.arm s.par.tBatMs) else ret .ok 0 (s.setAck .idle) :=
      .branch ((returns _ _).comp fun _ _ _ => rfl) ((returns _ _).comp fun _ _ _ => rfl)
    have acks : EnvBlind (ackedAction bytes rearm at_ ret) :=
      .ite (c := fun s => s.idx = bytes.length - 1) rearms fun _ _ _ => rfl
    exact acks s answers draws
  | resend =>
    have resends : EnvBlind (resendAction bytes at_ ret) :=
      .ite (c := fun s => s.retries = s.par.maxRetries) ((returns _ _).comp fun _ _ _ => rfl) fun _ _ _ => rfl
    exact resends s answers draws

theorem sendCommand_reads {bytes : List Byte} {rearm : Bool} {at_ : SendPc → Position}
    {ret : Status → Word32 → State → State} (l : SendPc) (returns : ∀ st v, EnvBlind (ret st v)) :
    ReadsAtMostOnce fun s => sendCommand bytes rearm l at_ ret s := by
  cases l <;> unfold sendCommand
  case s0 =>
    have latched : EnvBlind fun s => ret s.latchStatus s.latchValue s :=
      .value (k := fun x => ret x.1 x.2) (v := fun s => (s.latchStatus, s.latchValue)) (fun _ => returns _ _) blind_id
    exact .never (.ite latched fun _ _ _ => rfl)
  case write l =>
    refine writeToDevice_reads (b := fun s => bytes.getD s.idx 0) l fun r => ?_
    exact .branch ((returns _ _).comp fun _ _ _ => rfl) (blind_goto _)
  case s1 => exact .never (awaitAction_blind returns)
  case s2 => exact .never ((returns _ _).comp fun _ _ _ => rfl)
  case s3 => exact .never (blind_goto _)
  case flush l =>
    have answers {f : State → State} (h : EnvBlind f) : EnvBlind fun s => ret .protocolError (zext32 s.ackByte) (f s) :=
      .value (returns _) h
    exact flush_reads l fun _ => .branch (answers (f := (·.latch .timeout 0)) fun _ _ _ => rfl) (answers blind_id)

/-! ### The instructions -/

/-- `[b1]` reads no port. -/
theorem batAction_blind : EnvBlind batAction := by
  intro s answers draws
  have slot : (withEnv s answers draws).ackState = s.ackState := rfl
  have tests : EnvBlind fun s => if s.expired s.dl then (s.setAck .timedOut).goto (.kbdinit .b2)
      else s.goto (.kbdinit .b1) := .ite (fun _ _ _ => rfl) (blind_goto _)
  have examines : EnvBlind fun s => if s.ackByte = 0xAA then (s.setAck .idle).goto (.kbdinit (.enable .s0))
      else (s.setAck .idle).goto (.kbdinit .b3) := .ite (fun _ _ _ => rfl) fun _ _ _ => rfl
  unfold batAction
  rw [slot]
  cases s.ackState with
  | pending => exact tests s answers draws
  | _ => exact examines s answers draws

theorem kbdinitAction_reads (l : KbdPc) : ReadsAtMostOnce fun s => kbdinitAction l s := by
  cases l <;> unfold kbdinitAction
  case init l => exact ps2Init_reads l fun _ _ => .branch (blind_goto _) (blind_respond _ _)
  case reset l => exact sendCommand_reads l fun _ _ => .branch (blind_goto _) (blind_respond _ _)
  case enable l => exact sendCommand_reads l blind_respond
  case b1 => exact .never batAction_blind
  case b2 | b3 => exact .never fun _ _ _ => rfl
  case flush l => exact flush_reads l fun _ => .branch (fun _ _ _ => rfl) fun _ _ _ => rfl

theorem scanpopAction_blind : EnvBlind scanpopAction := by
  intro s answers draws
  have queue : (withEnv s answers draws).scanq = s.scanq := rfl
  unfold scanpopAction
  rw [queue]
  cases s.scanq <;> rfl

/-- Every action of a request reads a port at most once. -/
theorem ActionAt.reads {i : Instr} {f : State → State} (action : ActionAt i p f) : ReadsAtMostOnce f := by
  cases action with
  | clkinit freq l => cases l <;> exact .never fun _ _ _ => rfl
  | gettick | deadline ms | expired d => exact .never fun _ _ _ => rfl
  | sleep ms l =>
    cases l with
    | s0 => exact .never fun _ _ _ => rfl
    | s1 => exact .never (.ite (blind_respond _ _) (blind_goto _))
  | ps2wr byte l => exact writeToDevice_reads (b := fun _ => byte) l fun _ => blind_respond _ _
  | ps2rd l => exact readFromDevice_reads l fun _ _ => blind_respond _ _
  | ps2flush l => exact flush_reads l fun _ => blind_respond _ _
  | ps2cmd cmd l => exact cmdWrite_reads l fun _ => blind_respond _ _
  | ps2init l => exact ps2Init_reads l blind_respond
  | sendcmd nargs arg1 arg0 opcode l => exact sendCommand_reads l blind_respond
  | scanpop => exact .never scanpopAction_blind
  | kbdinit l => exact kbdinitAction_reads l

/-- The tick event reads no port. -/
theorem tickEvent_reads : ReadsAtMostOnce ticked := .never fun _ _ _ => rfl

theorem routeByte_blind (b : Byte) : EnvBlind (·.routeByte b) :=
  .ite (fun _ _ _ => rfl) (.ite (fun _ _ _ => rfl) fun _ _ _ => rfl)

/-- The keyboard event routes the one byte it reads (R140). -/
theorem kbdEvent_reads : ReadsAtMostOnce fun s => s.takeEvent s.par.irqKbd kbdByteBody := by
  refine .once (·.portPs2Data) (fun b s => ((s.record (.kbd b)).routeByte b).record (.eoi s.par.irqKbd)) (fun b => ?_)
    fun _ => rfl
  exact .value (k := fun line s => s.record (.eoi line)) (fun _ _ _ _ => rfl)
    ((routeByte_blind b).comp fun _ _ _ => rfl)

/-- The only way an instruction answers a next state: one action, which reads a port at most once. -/
theorem exec_reads {i : Instr} (he : exec i s = .next t) :
    ∃ f, ReadsAtMostOnce f ∧ t = f s ∧ ∀ u : State, u.pos = s.pos → exec i u = .next (f u) := by
  by_cases event : i = .advanceTick ∨ i = .kbdByte
  · obtain rfl | rfl := event
    · rw [exec_advanceTick] at he
      cases he
      exact ⟨_, tickEvent_reads, rfl, fun _ _ => exec_advanceTick⟩
    · rw [exec_kbdByte] at he
      cases he
      exact ⟨_, kbdEvent_reads, rfl, fun _ _ => exec_kbdByte⟩
  · obtain ⟨p, f, -, action, rfl, runs⟩ := exec_request_next (not_or.1 event) he
    exact ⟨f, action.reads, rfl, runs⟩

end Sys2Proof.Safety
end

section
/-! The obligation of the family on reads that have no answer lined up. -/

namespace Sys2Proof.Scope

open Sys2Proof.Machine Sys2Proof.Safety

/-- Settles O36: an action depends on the environment by the one byte it reads, if it reads one. -/
theorem unansweredReadTakesFreeByte : Obligations.UnansweredReadTakesFreeByte := by
  refine ⟨fun i s t empty he => ?_, fun s empty => ?_⟩
  · obtain ⟨f, reads, rfl, runs⟩ := exec_reads he
    obtain ⟨draws, same⟩ | ⟨draws, b, same⟩ := reads.unanswered empty
    · exact .inl ⟨draws, fun b => (runs { s with envq := [b] } rfl).trans (congrArg _ (same b))⟩
    · exact .inr ⟨draws, b, (runs { s with envq := [b] } rfl).trans (congrArg _ same)⟩
  · have drawn : (s.takeEvent s.par.irqKbd kbdByteBody).draws = s.draws + 1 := by simp [kbdEvent_effect, empty]
    obtain ⟨draws, -⟩ | ⟨draws, b, same⟩ := kbdEvent_reads.unanswered empty
    · omega
    · exact ⟨b, _, exec_kbdByte, exec_kbdByte.trans (congrArg _ same), draws⟩

end Sys2Proof.Scope
end

section
/-! SUPPORT. The decoder and the encoder, one operand layout at a time: an operand put together is read back, and an
operand that decodes is the one put together; with that, what is legal by the numbers of R76. -/

namespace Sys2Proof.Safety

variable {w : Word40} {op : Byte} {x : Word32} {i j : Instr}

/-! ### An operand put together decodes -/

/-- The operand of one byte: bits 31:8 are zero, bits 7:0 the byte (R74). -/
theorem byteOperand_fields (b : Byte) :
    (b.zeroExtend 32).extractLsb' 8 24 = 0 ∧ (b.zeroExtend 32).extractLsb' 0 8 = b := by
  simp only [← BitVec.toNat_inj, toNat_field]
  have := b.isLt
  simp
  omega

theorem decodePs2wr_zeroExtend (b : Byte) : decodePs2wr (b.zeroExtend 32) = .ok (.ps2wr b) := by
  obtain ⟨zero, low⟩ := byteOperand_fields b
  rw [decodePs2wr, if_pos zero, low]

theorem decodePs2cmd_zeroExtend {cmd : Byte} (h : (Instr.ps2cmd cmd).WellFormed) :
    decodePs2cmd (cmd.zeroExtend 32) = .ok (.ps2cmd cmd) := by
  obtain ⟨zero, low⟩ := byteOperand_fields cmd
  have inSet : controllerCommands.contains cmd = true := h
  rw [decodePs2cmd, if_pos zero, low, if_pos inSet]

/-- The fields of the operand of `SENDCMD` (R75). -/
theorem sendcmdOperand_fields (nargs : BitVec 2) (arg1 arg0 opcode : Byte) :
    (sendcmdOperand nargs arg1 arg0 opcode).extractLsb' 27 5 = 0 ∧
      (sendcmdOperand nargs arg1 arg0 opcode).extractLsb' 26 1 = 0 ∧
      (sendcmdOperand nargs arg1 arg0 opcode).extractLsb' 24 2 = nargs ∧
      (sendcmdOperand nargs arg1 arg0 opcode).extractLsb' 16 8 = arg1 ∧
      (sendcmdOperand nargs arg1 arg0 opcode).extractLsb' 8 8 = arg0 ∧
      (sendcmdOperand nargs arg1 arg0 opcode).extractLsb' 0 8 = opcode := by
  have h0 := nargs.isLt
  have h1 := arg1.isLt
  have h2 := arg0.isLt
  have h3 := opcode.isLt
  simp only [← BitVec.toNat_inj, toNat_field, toNat_sendcmdOperand, BitVec.ofNat_eq_ofNat, BitVec.toNat_ofNat]
  omega

theorem decodeSendcmd_sendcmdOperand {nargs : BitVec 2} {arg1 arg0 opcode : Byte}
    (h : (Instr.sendcmd nargs arg1 arg0 opcode).WellFormed) :
    decodeSendcmd (sendcmdOperand nargs arg1 arg0 opcode) = .ok (.sendcmd nargs arg1 arg0 opcode) := by
  obtain ⟨zero, dev, n, a1, a0, o⟩ := sendcmdOperand_fields nargs arg1 arg0 opcode
  have few : nargs ≠ 3 := by simpa [Instr.WellFormed, Instr.wellFormed] using h
  rw [decodeSendcmd, if_pos zero, if_pos dev, n, a1, a0, o, if_neg few]

/-! ### An operand that decodes is the one put together -/

theorem decodeNone_ok (h : decodeNone x j = .ok i) : j = i ∧ x = 0 := by
  unfold decodeNone at h
  split_ifs at h with zero
  cases h
  exact ⟨rfl, zero⟩

/-- A word with bits 31:8 zero is its low byte (R74). -/
theorem zeroExtend_lowByte (h : x.extractLsb' 8 24 = 0) : (x.extractLsb' 0 8).zeroExtend 32 = x := by
  simp only [← BitVec.toNat_inj, toNat_field] at h
  have := x.isLt
  apply BitVec.eq_of_toNat_eq
  rw [BitVec.toNat_setWidth, toNat_field]
  simp at h
  omega

theorem decodePs2wr_ok (h : decodePs2wr x = .ok i) : ∃ b : Byte, i = .ps2wr b ∧ x = b.zeroExtend 32 := by
  unfold decodePs2wr at h
  split_ifs at h with zero
  cases h
  exact ⟨_, rfl, (zeroExtend_lowByte zero).symm⟩

theorem decodePs2cmd_ok (h : decodePs2cmd x = .ok i) : ∃ b : Byte, i = .ps2cmd b ∧ x = b.zeroExtend 32 := by
  unfold decodePs2cmd at h
  split_ifs at h with zero
  cases h
  exact ⟨_, rfl, (zeroExtend_lowByte zero).symm⟩

theorem decodeSendcmd_ok (h : decodeSendcmd x = .ok i) :
    ∃ nargs arg1 arg0 opcode, i = .sendcmd nargs arg1 arg0 opcode ∧ x = sendcmdOperand nargs arg1 arg0 opcode := by
  unfold decodeSendcmd at h
  split_ifs at h with zero dev few
  cases h
  refine ⟨_, _, _, _, rfl, ?_⟩
  simp only [← BitVec.toNat_inj, toNat_field, toNat_sendcmdOperand, BitVec.ofNat_eq_ofNat, BitVec.toNat_ofNat]
    at zero dev ⊢
  have := x.isLt
  omega

/-- The request word of an operand that decodes is the encoding of what it decodes to: one case per row of R73. -/
theorem encode_of_decodeOp (h : decodeOp op x = .ok i) : encode i = .request (requestWord op x) := by
  have noOperand {j : Instr} (row : encode j = .request (requestWord op 0)) (h : decodeNone x j = .ok i) :
      encode i = .request (requestWord op x) := by
    obtain ⟨rfl, rfl⟩ := decodeNone_ok h
    exact row
  simp only [decodeOp, ite_eq_iff, Except.ok.injEq, reduceCtorEq, and_false, or_false] at h
  obtain ⟨rfl, rfl⟩ | ⟨-, ⟨rfl, h⟩ | ⟨-, ⟨rfl, rfl⟩ | ⟨-, ⟨rfl, rfl⟩ | ⟨-, ⟨rfl, rfl⟩ | ⟨-, ⟨rfl, h⟩ | ⟨-, ⟨rfl, h⟩ |
    ⟨-, ⟨rfl, h⟩ | ⟨-, ⟨rfl, h⟩ | ⟨-, ⟨rfl, h⟩ | ⟨-, ⟨rfl, h⟩ | ⟨-, ⟨rfl, h⟩ | ⟨-, rfl, h⟩⟩⟩⟩⟩⟩⟩⟩⟩⟩⟩⟩ := h
  · rfl
  · exact noOperand rfl h
  · rfl
  · rfl
  · rfl
  · obtain ⟨b, rfl, rfl⟩ := decodePs2wr_ok h
    rfl
  · exact noOperand rfl h
  · exact noOperand rfl h
  · obtain ⟨b, rfl, rfl⟩ := decodePs2cmd_ok h
    rfl
  · exact noOperand rfl h
  · obtain ⟨nargs, arg1, arg0, opcode, rfl, rfl⟩ := decodeSendcmd_ok h
    rfl
  · exact noOperand rfl h
  · exact noOperand rfl h

theorem encode_of_decodeRequest (h : decodeRequest w = .ok i) : encode i = .request w :=
  (encode_of_decodeOp h).trans (by rw [requestWord_fields])

/-! ### Legal and illegal words by their numbers -/

theorem opNumber_requestWord (op : Byte) (x : Word32) : opNumber (requestWord op x) = op.toNat := by
  rw [opNumber_eq, opField_requestWord]

theorem operandNumber_requestWord (op : Byte) (x : Word32) : operandNumber (requestWord op x) = x.toNat := by
  rw [operandNumber_eq, operandField_requestWord]

/-- The encoding of a well-formed request is in none of the cases of R76. -/
theorem not_illegalRequest_of_encode (wf : i.WellFormed) (h : encode i = .request w) : ¬ IllegalRequest w := by
  cases i <;> cases h <;> rw [IllegalRequest, opNumber_requestWord, operandNumber_requestWord]
  case ps2wr b => have := b.isLt; simp; omega
  case ps2cmd cmd =>
    have := cmd.isLt
    simp [Instr.WellFormed, Instr.wellFormed, controllerCommands, ← BitVec.toNat_inj] at wf ⊢
    omega
  case sendcmd nargs arg1 arg0 opcode =>
    have h0 := nargs.isLt
    have h1 := arg1.isLt
    have h2 := arg0.isLt
    have h3 := opcode.isLt
    simp [Instr.WellFormed, Instr.wellFormed, toNat_sendcmdOperand, ← BitVec.toNat_inj] at wf ⊢
    omega
  all_goals simp

/-- R76 lists exactly the requests the decoder rejects. -/
theorem decodeRequest_error_iff (w : Word40) : (∃ e, decodeRequest w = .error e) ↔ IllegalRequest w := by
  refine ⟨fun ⟨_, rejected⟩ => illegalRequest_of_error rejected, fun illegal => ?_⟩
  cases hd : decodeRequest w with
  | error e => exact ⟨e, rfl⟩
  | ok i =>
    have legal := not_illegalRequest_of_encode (wellFormed_of_decodeRequest hd) (encode_of_decodeRequest hd)
    exact absurd illegal legal

end Sys2Proof.Safety
end

section
/-! The obligations of the family: encoding. -/

namespace Sys2Proof.Scope

open Sys2Proof.Machine Sys2Proof.Safety

/-- Settles O1: the two fields of a request word are read back, and then the operand, by its layout. -/
theorem decodeOfEncode : Obligations.DecodeOfEncode := by
  intro i wf
  have request (op : Byte) (x : Word32) : decode (.request (requestWord op x)) = decodeOp op x := by
    rw [decode, decodeRequest, opField_requestWord, operandField_requestWord]
  cases i
  case ps2wr b => exact (request 0x20 _).trans (decodePs2wr_zeroExtend b)
  case ps2cmd cmd => exact (request 0x23 _).trans (decodePs2cmd_zeroExtend wf)
  case sendcmd => exact (request 0x30 _).trans (decodeSendcmd_sendcmdOperand wf)
  case advanceTick | kbdByte => rfl
  all_goals exact request _ _

/-- Settles O2: a request word is its two fields, and of the four event words two stand for one event. -/
theorem legalWordsAreEncodings : Obligations.LegalWordsAreEncodings := by
  rintro (w | w) i h
  · exact ⟨encode_of_decodeRequest h, wellFormed_of_decodeRequest h⟩
  · rcases eventWord_cases w with rfl | rfl | rfl | rfl <;> cases h
    · exact ⟨rfl, rfl⟩
    · exact ⟨rfl, rfl⟩

/-- Settles O3: seven closed words, decoded. -/
theorem writtenWordsDecode : Obligations.WrittenWordsDecode := by
  unfold Obligations.WrittenWordsDecode
  decide

/-- Settles O4: R76 lists what the decoder rejects, and the acceptance of a rejected word is its answer. -/
theorem illegalRequestAnswered : Obligations.IllegalRequestAnswered := by
  refine ⟨decodeRequest_error_iff, fun s w rest idle quiet first illegal => ?_⟩
  obtain ⟨e, rejected⟩ := (decodeRequest_error_iff w).2 illegal
  have operand : BitVec.ofNat 32 (operandNumber w) = operandField w := by
    rw [operandNumber_eq, BitVec.ofNat_toNat, BitVec.setWidth_eq]
  have idle' : (sampled s).pos = .idle := idle
  rw [step_accepts idle quiet first, accept_illegal rejected, operand, State.respond, ← idle']
  rfl

end Sys2Proof.Scope
end

section
/-! The obligation of the family on simultaneous events. -/

namespace Sys2Proof.Scope

open Sys2Proof.Machine Sys2Proof.Safety

/-- Both events pulsed in one gap: one occurs in this step, and the other stays due (R72, log 6). -/
theorem step_bothEvents {s : State} {rest : List Input} (both : s.inputs = .ev 3 :: rest) :
    step s = if Config.kbdFirst s.draws then
        exec .kbdByte { s with inputs := .ev 1 :: rest, draws := s.draws + 1 }
      else exec .advanceTick { s with inputs := .ev 2 :: rest, draws := s.draws + 1 } := by
  cases hk : Config.kbdFirst s.draws <;>
    simp [step, State.turn, both, State.eventTurn, eventsOf, State.bothEvents, hk]

/-- Settles O9: the two events write no field in common but the history, and the one that stays due in the first step
is the one event of the second. -/
theorem simultaneousEventsBothOccur : Obligations.SimultaneousEventsBothOccur := by
  intro s rest both
  refine ⟨_, _, _, _, exec_advanceTick, exec_kbdByte, exec_kbdByte, exec_advanceTick, ?_, ?_⟩
  · simp only [tickEvent_effect, kbdEvent_effect]
    rfl
  · have first := step_bothEvents both
    cases hk : Config.kbdFirst s.draws with
    | true =>
      rw [hk, if_pos rfl, exec_kbdByte, kbdEvent_effect] at first
      refine ⟨_, _, first, stepRunsDecodedEvent _ 1 rest .advanceTick rfl rfl, .inr ?_⟩
      simp only [kbdEvent_effect]
      rfl
    | false =>
      rw [hk, if_neg Bool.false_ne_true, exec_advanceTick] at first
      refine ⟨_, _, first, stepRunsDecodedEvent _ 2 rest .kbdByte rfl rfl, .inl ?_⟩
      simp only [kbdEvent_effect]
      rfl

end Sys2Proof.Scope
end

section
/-! SUPPORT. One attempt at a byte of a command (R116, R140, R142), wherever `send_command` runs, and the rest of a
command whose bytes are all acknowledged (R144). -/

namespace Sys2Proof.Safety

open Sys2Proof.Machine

variable {s t : State} {i : Instr} {bytes rest bs : List Byte} {pos : SendPc → Position} {st b c : Byte}

/-- At each label of its command `i` runs `send_command`, and goes on after it in the same way at every label. Only
the `0xFF` command of `KBDINIT` arms the slot again and does not answer at once (R160, R161). -/
theorem Sends.routine (sends : Sends i bytes pos) :
    ∃ rearm ret, (∀ l s, s.pos = pos l → exec i s = .next (sendCommand bytes rearm l pos ret s)) ∧
      (¬ (i = .kbdinit ∧ bytes = [0xFF]) → rearm = false ∧ ret = fun st v s => s.respond st v) := by
  obtain ⟨nargs, arg1, arg0, opcode, rfl, rfl, rfl⟩ | ⟨rfl, rfl, rfl⟩ | ⟨rfl, rfl, rfl⟩ := sends
  · exact ⟨_, _, fun _ _ h => exec_sendcmd nargs arg1 arg0 opcode h, fun _ => ⟨rfl, rfl⟩⟩
  · exact ⟨true, fun st v s => if st = .ok then s.goto (.kbdinit .b1) else s.respond st v,
      fun _ _ h => exec_kbdinit h, fun plain => absurd ⟨rfl, rfl⟩ plain⟩
  · exact ⟨false, fun st v s => s.respond st v, fun _ _ h => exec_kbdinit h, fun _ => ⟨rfl, rfl⟩⟩

/-- No command begins with a poll, so the poll before a byte is met only at its own labels. -/
theorem Sends.pos_of_standsAt (sends : Sends i bytes pos) {l : PollPc}
    (h : StandsAt i (fun l => pos (.write (.poll l))) l s) : s.pos = pos (.write (.poll l)) := by
  obtain h | ⟨-, entry, -⟩ := h
  · exact h
  · obtain ⟨nargs, arg1, arg0, opcode, rfl, rfl, rfl⟩ | ⟨rfl, rfl, rfl⟩ | ⟨rfl, rfl, rfl⟩ := sends <;>
      cases entry

/-- Before each byte a command waits for the input buffer to be free (R116). -/
theorem polls_send (sends : Sends i bytes pos) :
    Polls i (fun l => pos (.write (.poll l))) (pos (.write .w1)) 1 false := by
  obtain ⟨rearm, ret, runs, -⟩ := sends.routine
  exact polls_of_pollWait
    (ret := fun r s => if r = .timeout then ret .timeout 0 (s.latch .timeout 0) else s.goto (pos (.write .w1)))
    (fun l s h => runs _ s (sends.pos_of_standsAt h)) inputBufferClear_iff fun _ => rfl

/-! ### One attempt at a byte -/

/-- `s` at the position `p` after one attempt at the byte `c`, with the status byte `st` and the reply `b`. -/
def replied (s : State) (c st b : Byte) (rest : List Byte) (p : Position) : State :=
  { s with
    dl := s.deadlineIn s.par.tAckMs, sreg := st, envq := rest, ackState := ackClass b, ackByte := b, pos := p,
    trace := [.eoi s.par.irqKbd, .kbd b, .ioW s.par.portPs2Data c, .ioR s.par.portPs2StCmd st] ++ s.trace }

/-- One attempt adds one write of the data port. -/
theorem replied_writes (s : State) (c st b : Byte) (rest : List Byte) (p : Position) :
    (replied s c st b rest p).trace.filter (isDataWrite s.par) =
      .ioW s.par.portPs2Data c :: s.trace.filter (isDataWrite s.par) := by
  simp [replied, isDataWrite]

/-- With the input buffer free an attempt is the poll, the write, which arms the slot, and the reply, which the slot
takes. -/
theorem Sends.runs_attempt (sends : Sends i bytes pos) (at0 : s.pos = pos (.write (.poll .p0)))
    (byte : bytes.getD s.idx 0 = c) (answers : s.envq = st :: b :: rest) (free : st.getLsbD 1 = false) :
    Runs (List.replicate 3 i ++ [.kbdByte]) s (replied s c st b rest (pos .s1)) := by
  subst byte
  obtain ⟨rearm, ret, runs, -⟩ := sends.routine
  refine ((polls_send sends).runs_atOnce (.inl at0) answers free).append
    (.cons (runs (.write .w1) _ rfl) (.cons exec_kbdByte ?_))
  rw [kbdEvent_effect]
  rfl

/-! ### An acknowledged byte -/

/-- `[s1]` with an ACK before the last byte goes on to the next byte (R144). -/
theorem Sends.exec_acked (sends : Sends i bytes pos) (at1 : s.pos = pos .s1) (acked : s.ackState = .acked)
    (more : s.idx + 1 < bytes.length) :
    exec i s = .next { s with
      ackState := .idle, idx := s.idx + 1, retries := 0, pos := pos (.write (.poll .p0)) } := by
  obtain ⟨rearm, ret, runs, -⟩ := sends.routine
  have notLast : s.idx ≠ bytes.length - 1 := by omega
  rw [runs _ s at1, sendCommand, awaitAction, acked]
  simp only [ackedAction, if_neg notLast]
  rfl

/-- `[s1]` with the ACK of the last byte ends the operation (R144), except after `0xFF` in `KBDINIT`. -/
theorem Sends.exec_lastAcked (sends : Sends i bytes pos) (plain : ¬ (i = .kbdinit ∧ bytes = [0xFF]))
    (at1 : s.pos = pos .s1) (acked : s.ackState = .acked) (last : s.idx + 1 = bytes.length) :
    exec i s = .next ((s.setAck .idle).respond .ok 0) := by
  obtain ⟨rearm, ret, runs, answers⟩ := sends.routine
  obtain ⟨rfl, rfl⟩ := answers plain
  have isLast : s.idx = bytes.length - 1 := by omega
  rw [runs _ s at1, sendCommand, awaitAction, acked]
  simp only [ackedAction, if_pos isLast, Bool.false_eq_true, if_false]

/-! ### Where a command begins and how many bytes it has -/

/-- A `SENDCMD` to a device that is not latched begins at the poll before its first byte (R141). -/
theorem exec_sendcmd_begins {nargs : BitVec 2} {arg1 arg0 opcode : Byte}
    (ready : Ready (.sendcmd nargs arg1 arg0 opcode) s) (usable : s.unresp = false) :
    exec (.sendcmd nargs arg1 arg0 opcode) s =
      .next ({ s with idx := 0, retries := 0 }.goto (.sendcmd (.write (.poll .p0)))) := by
  have unlatched : ¬ s.unresp = true := by simp [usable]
  rw [exec_sendcmd_begin nargs arg1 arg0 opcode ready, sendCommand, if_neg unlatched]

/-- The opcode and the `nargs` arguments (R75). -/
theorem length_commandBytes {nargs : BitVec 2} {arg1 arg0 opcode : Byte}
    (wf : (Instr.sendcmd nargs arg1 arg0 opcode).WellFormed) :
    (commandBytes nargs arg1 arg0 opcode).length = 1 + nargs.toNat := by
  have few : nargs.toNat ≠ 3 := by simpa [Instr.WellFormed, Instr.wellFormed, ← BitVec.toNat_inj] using wf
  have := nargs.isLt
  unfold commandBytes
  split_ifs <;> simp <;> omega

theorem length_of_drop {k : Nat} (left : bytes.drop k = c :: bs) : bytes.length = k + 1 + bs.length := by
  have := congrArg List.length left
  rw [List.length_drop, List.length_cons] at this
  omega

theorem getD_of_drop {k : Nat} (left : bytes.drop k = c :: bs) : bytes.getD k 0 = c := by
  rw [List.getD_eq_getElem?_getD, ← List.head?_drop, left]
  rfl

/-! ### Every byte acknowledged -/

/-- `s` at the position `p` after one attempt at the byte `c`, which was acknowledged. -/
def acknowledged (s : State) (c st : Byte) (rest : List Byte) (p : Position) : State :=
  { replied s c st 0xFA rest p with ackState := .idle, idx := s.idx + 1, retries := 0 }

/-- A byte that is acknowledged and is not the last: one attempt, and the ACK leads to the next byte. -/
theorem Sends.runs_byte (sends : Sends i bytes pos) (free : st.getLsbD 1 = false)
    (left : bytes.drop s.idx = c :: b :: bs) (at0 : s.pos = pos (.write (.poll .p0)))
    (answers : s.envq = st :: 0xFA :: rest) :
    Runs (List.replicate 3 i ++ [.kbdByte, i]) s (acknowledged s c st rest (pos (.write (.poll .p0)))) := by
  have more : s.idx + 1 < bytes.length := by
    rw [length_of_drop left, List.length_cons]
    omega
  have acked := sends.exec_acked (s := replied s c st 0xFA rest (pos .s1)) rfl rfl more
  exact (sends.runs_attempt at0 (getD_of_drop left) answers free).append (.cons acked rfl)

/-- The last byte, acknowledged: one attempt, and the ACK ends the operation. -/
theorem Sends.runs_lastByte (sends : Sends i bytes pos) (plain : ¬ (i = .kbdinit ∧ bytes = [0xFF]))
    (free : st.getLsbD 1 = false) (left : bytes.drop s.idx = [c]) (at0 : s.pos = pos (.write (.poll .p0)))
    (answers : s.envq = st :: 0xFA :: rest) :
    Runs (List.replicate 3 i ++ [.kbdByte, i]) s
      (((replied s c st 0xFA rest (pos .s1)).setAck .idle).respond .ok 0) := by
  have acked := sends.exec_lastAcked (s := replied s c st 0xFA rest (pos .s1)) plain rfl rfl
    (length_of_drop left).symm
  exact (sends.runs_attempt at0 (getD_of_drop left) answers free).append (.cons acked rfl)

/-- `t` is `s` after the bytes `bs` have been written, each once, and acknowledged, and `(Ok, 0)` answered; of the
answers lined up `rest` is left. -/
structure Acknowledged (bs rest : List Byte) (s t : State) : Prop where
  rsp : t.rsp = 0
  pos : t.pos = .idle
  ackState : t.ackState = .idle
  ackByte : t.ackByte = 0xFA
  unresp : t.unresp = s.unresp
  scanq : t.scanq = s.scanq
  envq : t.envq = rest
  writes : t.trace.filter (isDataWrite s.par) =
    (bs.map (.ioW s.par.portPs2Data)).reverse ++ s.trace.filter (isDataWrite s.par)

theorem acknowledged_last (s : State) (c st : Byte) (rest : List Byte) (p : Position) :
    Acknowledged [c] rest s (((replied s c st 0xFA rest p).setAck .idle).respond .ok 0) where
  rsp := rfl
  pos := rfl
  ackState := rfl
  ackByte := rfl
  unresp := rfl
  scanq := rfl
  envq := rfl
  writes := replied_writes s c st 0xFA rest p

theorem Acknowledged.cons {left : List Byte} {p : Position} (h : Acknowledged bs rest (acknowledged s c st left p) t) :
    Acknowledged (c :: bs) rest s t := by
  refine { h with writes := ?_ }
  rw [List.map_cons, List.reverse_cons, List.append_assoc]
  exact h.writes.trans (congrArg _ (replied_writes s c st 0xFA left p))

/-- A command from the poll before a byte, when that byte and all after it are acknowledged. -/
theorem Sends.runs_acknowledged (sends : Sends i bytes pos) (plain : ¬ (i = .kbdinit ∧ bytes = [0xFF]))
    (free : st.getLsbD 1 = false) (left : bytes.drop s.idx = c :: bs) (at0 : s.pos = pos (.write (.poll .p0)))
    (answers : s.envq = repeatedBytes (c :: bs).length [st, 0xFA] ++ rest) :
    ∃ t, Runs (repeated (c :: bs).length (List.replicate 3 i ++ [.kbdByte, i])) s t ∧
      Acknowledged (c :: bs) rest s t := by
  induction bs generalizing s c with
  | nil => exact ⟨_, sends.runs_lastByte plain free left at0 answers, acknowledged_last s c st rest _⟩
  | cons d bs ih =>
    have others : bytes.drop (s.idx + 1) = d :: bs := by rw [← List.tail_drop, left, List.tail_cons]
    obtain ⟨t, runs, done⟩ := ih
      (s := acknowledged s c st (repeatedBytes (d :: bs).length [st, 0xFA] ++ rest) (pos (.write (.poll .p0))))
      others rfl rfl
    exact ⟨t, (sends.runs_byte free left at0 answers).append runs, done.cons⟩

end Sys2Proof.Safety
end

section
/-! The obligation of the family on acknowledged commands. -/

namespace Sys2Proof.Scope

open Sys2Proof.Machine Sys2Proof.Safety

/-- Settles O41: the first action leads to the poll before the opcode, and from there every byte is acknowledged. -/
theorem sendcmdAllAcknowledged : Obligations.SendcmdAllAcknowledged := by
  intro nargs arg1 arg0 opcode st rest s wf ready usable free answers
  have sends : Sends (.sendcmd nargs arg1 arg0 opcode) (commandBytes nargs arg1 arg0 opcode) .sendcmd :=
    .inl ⟨nargs, arg1, arg0, opcode, rfl, rfl, rfl⟩
  obtain ⟨t, runs, done⟩ := sends.runs_acknowledged (s := { s with idx := 0, retries := 0 }.goto _) nofun free
    rfl rfl answers
  exact ⟨t, .cons (exec_sendcmd_begins ready usable) runs, length_commandBytes wf, done.rsp, done.pos,
    done.ackState, done.ackByte, done.unresp.trans usable, done.scanq, done.envq, done.writes⟩

end Sys2Proof.Scope
end

section
/-! SUPPORT. Tick events one after the other (R91, R95), and states that differ in `TICK` and the history alone. -/

namespace Sys2Proof.Safety

open Sys2Proof.Machine

variable {s t u : State}

/-- A run ends in one state only. -/
theorem Runs.unique {is : List Instr} (h : Runs is s t) (h' : Runs is s u) : t = u := by
  induction is generalizing s with
  | nil => exact h.symm.trans h'
  | cons i is ih =>
    obtain ⟨v, first, rest⟩ := h
    obtain ⟨w, first', rest'⟩ := h'
    rw [first] at first'
    cases first'
    exact ih rest rest'

/-- `n` tick events lead to `ticked`, `n` times. -/
theorem runs_ticks (n : Nat) (s : State) : Runs (List.replicate n .advanceTick) s (ticked^[n] s) := by
  induction n generalizing s with
  | zero => rfl
  | succ n ih => exact .cons exec_advanceTick (ih (ticked s))

theorem ticks_tick (n : Nat) (below : s.tick < s.modulus) : (ticked^[n] s).tick = (s.tick + n) % s.modulus := by
  induction n generalizing s with
  | zero => exact (Nat.mod_eq_of_lt below).symm
  | succ n ih =>
    calc (ticked^[n] (ticked s)).tick
      _ = ((s.tick + 1) % s.modulus + n) % s.modulus := ih (Nat.mod_lt _ (Nat.zero_lt_of_lt below))
      _ = (s.tick + (n + 1)) % s.modulus := by rw [Nat.mod_add_mod, Nat.add_assoc, Nat.add_comm 1]

/-- `u` is `s` but for `TICK` and the history. -/
def SameButTick (s u : State) : Prop := ∃ tick trace, u = { s with tick := tick, trace := trace }

theorem SameButTick.refl (s : State) : SameButTick s s := ⟨_, _, rfl⟩

theorem SameButTick.pos (h : SameButTick s u) : u.pos = s.pos := by
  obtain ⟨_, _, rfl⟩ := h
  rfl

/-- `TICK` and the history put back give the state there was. -/
theorem SameButTick.restore (h : SameButTick s u) : { u with tick := s.tick, trace := s.trace } = s := by
  obtain ⟨_, _, rfl⟩ := h
  rfl

/-- Tick events change nothing else (R91). -/
theorem SameButTick.ticks (h : SameButTick s u) (n : Nat) : SameButTick s (ticked^[n] u) := by
  induction n generalizing u with
  | zero => exact h
  | succ n ih =>
    obtain ⟨_, _, rfl⟩ := h
    exact ih ⟨_, _, rfl⟩

end Sys2Proof.Safety
end

section
/-! SUPPORT. `CLKINIT` (R90): the values it programs, its four actions, and that `TICK` plays no part in them. -/

namespace Sys2Proof.Safety

open Sys2Proof.Machine

variable {s u : State} {freq : Word32}

/-! ### The values -/

theorem clampFreq_eq_min (s : State) (freq : Word32) :
    s.clampFreq freq = if freq.toNat = 0 then 1 else min freq.toNat s.par.oscHz.toNat := by
  unfold State.clampFreq
  split_ifs <;> omega

theorem divisorFor_eq_min (s : State) (f : Nat) : s.divisorFor f = min (s.par.oscHz.toNat / f) 65536 := by
  unfold State.divisorFor
  split_ifs <;> omega

/-- The clamped frequency is in `[1, OSC_HZ]`. -/
theorem clampFreq_range (ok : s.par.Ok) (freq : Word32) :
    1 ≤ s.clampFreq freq ∧ s.clampFreq freq ≤ s.par.oscHz.toNat := by
  obtain ⟨-, -, running, -⟩ := ok
  rw [clampFreq_eq_min]
  split_ifs <;> omega

/-- The divisor of a frequency in `[1, OSC_HZ]` is in `[1, 65536]`: the clamp from below never acts. -/
theorem divisorFor_range {f : Nat} (range : 1 ≤ f ∧ f ≤ s.par.oscHz.toNat) :
    1 ≤ s.divisorFor f ∧ s.divisorFor f ≤ 65536 := by
  have positive : 0 < s.par.oscHz.toNat / f := Nat.div_pos range.2 range.1
  rw [divisorFor_eq_min]
  omega

/-- The low byte of `DIVISOR`, and its high byte without bit 16 (R58, R80). -/
theorem divisor_bytes (d : Nat) :
    (BitVec.ofNat 17 d).extractLsb' 0 8 = BitVec.ofNat 8 d ∧
      (BitVec.ofNat 17 d).extractLsb' 8 8 = BitVec.ofNat 8 (d / 256) := by
  simp only [← BitVec.toNat_inj, toNat_field, BitVec.toNat_ofNat]
  omega

theorem divisor_zeroExtend {d : Nat} (fits : d < 2 ^ 17) :
    (BitVec.ofNat 17 d).zeroExtend 32 = BitVec.ofNat 32 d := by
  simp only [← BitVec.toNat_inj, BitVec.toNat_setWidth, BitVec.toNat_ofNat]
  omega

/-! ### The four actions -/

theorem runs_clkinit (freq : Word32) {l : ClkPc} (h : s.pos = .clkinit l) :
    Runs [.clkinit freq] s (clkinitAction freq l s) :=
  .cons (exec_clkinit freq h) rfl

theorem runs_clkinit_begin (ready : Ready (.clkinit freq) s) : Runs [.clkinit freq] s (clkinitAction freq .c1 s) :=
  .cons (exec_clkinit_begin freq ready) rfl

/-- The state after the four actions of `CLKINIT`, with nothing between them. -/
def clockProgrammed (freq : Word32) (s : State) : State :=
  clkinitAction freq .c4 (clkinitAction freq .c3 (clkinitAction freq .c2 (clkinitAction freq .c1 s)))

theorem runs_clkinit_whole (ready : Ready (.clkinit freq) s) :
    Runs (List.replicate 4 (.clkinit freq)) s (clockProgrammed freq s) :=
  .cons (exec_clkinit_begin freq ready) (.cons (exec_clkinit freq rfl)
    (.cons (exec_clkinit freq rfl) (.cons (exec_clkinit freq rfl) rfl)))

/-- What `CLKINIT` leaves, for the frequency `f` and the divisor `d` it arrives at. -/
theorem clockProgrammed_eq {f d : Nat} (hf : s.clampFreq freq = f) (hd : s.divisorFor f = d) (fits : d < 2 ^ 17) :
    clockProgrammed freq s = { s with
      freq := BitVec.ofNat 32 f, divisor := BitVec.ofNat 17 d, tick := 0,
      rsp := 0x00#8 ++ BitVec.ofNat 32 d, pos := .idle,
      trace := .rsp .ok (BitVec.ofNat 32 d) :: .ioW s.par.portPitCh0 (BitVec.ofNat 8 (d / 256)) ::
        .ioW s.par.portPitCh0 (BitVec.ofNat 8 d) :: .ioW s.par.portPitCtrl s.par.pitCw :: s.trace } := by
  obtain ⟨low, high⟩ := divisor_bytes d
  rw [← low, ← high, ← divisor_zeroExtend fits, ← hd, ← hf]
  rfl

/-! ### Ticks between the actions -/

/-- No action of `CLKINIT` reads `TICK`. -/
theorem SameButTick.clkinit (h : SameButTick s u) (freq : Word32) (l : ClkPc) :
    SameButTick (clkinitAction freq l s) (clkinitAction freq l u) := by
  obtain ⟨_, _, rfl⟩ := h
  cases l <;> exact ⟨_, _, rfl⟩

/-- The last action zeroes `TICK`, whatever it was. -/
theorem SameButTick.clkinit_last (h : SameButTick s u) :
    (clkinitAction freq .c4 u).tick = 0 ∧
      { clkinitAction freq .c4 u with trace := (clkinitAction freq .c4 s).trace } = clkinitAction freq .c4 s := by
  obtain ⟨_, _, rfl⟩ := h
  exact ⟨rfl, rfl⟩

/-- Ticks between the actions of `CLKINIT` leave a trace in the history only. -/
theorem runs_clkinit_interrupted (ready : Ready (.clkinit freq) s) (k m n : Nat) :
    ∃ u, Runs ([.clkinit freq] ++ List.replicate k .advanceTick ++ [.clkinit freq] ++
        List.replicate m .advanceTick ++ [.clkinit freq] ++ List.replicate n .advanceTick ++ [.clkinit freq]) s u ∧
      u.tick = 0 ∧ { u with trace := (clockProgrammed freq s).trace } = clockProgrammed freq s := by
  have first := (runs_clkinit_begin ready).append (runs_ticks k _)
  have same1 := (SameButTick.refl (clkinitAction freq .c1 s)).ticks k
  have second := (first.append (runs_clkinit freq same1.pos)).append (runs_ticks m _)
  have same2 := (same1.clkinit freq .c2).ticks m
  have third := (second.append (runs_clkinit freq same2.pos)).append (runs_ticks n _)
  have same3 := (same2.clkinit freq .c3).ticks n
  exact ⟨_, third.append (runs_clkinit freq same3.pos), same3.clkinit_last⟩

end Sys2Proof.Safety
end

section
/-! The obligations of the family: `CLKINIT`, the tick event and `GETTICK`. -/

namespace Sys2Proof.Scope

open Sys2Proof.Machine Sys2Proof.Safety

/-- Settles O12: the one action of `GETTICK` is its response. -/
theorem gettickAnswersTick : Obligations.GettickAnswersTick :=
  ⟨rfl, fun s ready => ⟨exec_gettick_begin ready, fun fits => by rw [BitVec.toNat_ofNat, Nat.mod_eq_of_lt fits]⟩⟩

/-- Settles O13: the event runs wherever the sequencer stands. -/
theorem advanceTickIncrements : Obligations.AdvanceTickIncrements :=
  ⟨rfl, fun _ => exec_advanceTick.trans (congrArg _ tickEvent_effect)⟩

/-- Settles O14: the four actions in a row, and, with ticks between them, the same actions on states that differ in
`TICK`, which the last action zeroes, and the history. -/
theorem clkinitProgramsTimer : Obligations.ClkinitProgramsTimer := by
  refine ⟨fun freq s => ⟨rfl, fun ready ok => ?_⟩, fun freq s t k m n ready runs => ?_⟩
  · have freqRange := clampFreq_range ok freq
    have divRange := divisorFor_range freqRange
    have oscBound := s.par.oscHz.isLt
    refine ⟨s.clampFreq freq, s.divisorFor (s.clampFreq freq), clampFreq_eq_min s freq, divisorFor_eq_min s _,
      divRange.1, ?_, ?_, ?_⟩
    · rw [BitVec.toNat_ofNat, Nat.mod_eq_of_lt (by omega)]
    · rw [BitVec.toNat_ofNat, Nat.mod_eq_of_lt (by omega)]
    · rw [← clockProgrammed_eq rfl rfl (by omega)]
      exact runs_clkinit_whole ready
  · obtain rfl := (runs_clkinit_whole ready).unique runs
    exact runs_clkinit_interrupted ready k m n

/-- Settles O16: by induction on the number of ticks. -/
theorem ticksAdvanceModulo : Obligations.TicksAdvanceModulo := fun n s below =>
  ⟨_, runs_ticks n s, ticks_tick n below, ((SameButTick.refl s).ticks n).restore⟩

end Sys2Proof.Scope
end

section
/-! SUPPORT. The frames of the actions of `SLEEP`, `SCANPOP` and `CLKINIT` (R104, R151, R90). -/

namespace Sys2Proof.Safety

open Sys2Proof.Machine

variable {s t : State}

theorem sleepAction_frame {ms : Word32} {l : SleepPc} (h : t = sleepAction ms l s) :
    t = { s with dl := t.dl, rsp := t.rsp, pos := t.pos, trace := t.trace } := by
  subst h
  cases l with
  | s0 => rfl
  | s1 =>
    rw [sleepAction]
    split <;> rfl

theorem scanpopAction_frame (h : t = scanpopAction s) :
    t = { s with scanq := t.scanq, rsp := t.rsp, pos := t.pos, trace := t.trace } := by
  subst h
  unfold scanpopAction
  split <;> rfl

theorem clkinitAction_frame {freq : Word32} {l : ClkPc} (h : t = clkinitAction freq l s) :
    t = { s with
      freq := t.freq, divisor := t.divisor, tick := t.tick, rsp := t.rsp, pos := t.pos, trace := t.trace } := by
  subst h
  cases l <;> rfl

end Sys2Proof.Safety
end

section
/-! The obligation of the family on the frames of the operations that read no port. -/

namespace Sys2Proof.Scope

open Sys2Proof.Machine Sys2Proof.Safety

/-- Settles O51: three of the operations are a response alone; the others have the frame of each of their actions. -/
theorem frameOfHostOnlyOperations : Obligations.FrameOfHostOnlyOperations := by
  refine fun i s t he => ⟨?responds, ?sleep, ?scanpop, ?clkinit⟩
  case responds =>
    rintro (rfl | ⟨ms, rfl⟩ | ⟨d, rfl⟩)
    · obtain ⟨-, rfl⟩ := exec_gettick_next he
      rfl
    · obtain ⟨-, rfl⟩ := exec_deadline_next ms he
      rfl
    · obtain ⟨-, rfl⟩ := exec_expired_next d he
      rfl
  case sleep =>
    rintro ⟨ms, rfl⟩
    obtain ⟨l, -, action⟩ := exec_sleep_next ms he
    exact sleepAction_frame action
  case scanpop =>
    rintro rfl
    obtain ⟨-, action⟩ := exec_scanpop_next he
    exact scanpopAction_frame action
  case clkinit =>
    rintro ⟨freq, rfl⟩
    obtain ⟨l, -, action⟩ := exec_clkinit_next freq he
    exact clkinitAction_frame action

end Sys2Proof.Scope
end

section
/-! SUPPORT. The tick count of a wait (R100), and the comparator (R102), read
some ticks after a deadline was made (R107). -/

namespace Sys2Proof.Safety

open Sys2Proof.Machine

variable {s : State} {d k j : Nat} {ms : Word32}

/-! ### The tick count -/

/-- Without reduction modulo `2^W`, `delta(ms)` is the quotient `ms * FREQ / 1000` rounded up. -/
theorem delta_le_iff (fits : (ms.toNat * s.freq.toNat + 999) / 1000 < s.modulus) (q : Nat) :
    s.delta ms ≤ q ↔ ms.toNat * s.freq.toNat ≤ 1000 * q := by
  rw [State.delta, Nat.mod_eq_of_lt fits]
  omega

/-- A wait of no time, or by a clock that does not run, lasts no ticks (R197). -/
theorem delta_eq_zero (h : ms = 0 ∨ s.freq = 0) : s.delta ms = 0 := by
  obtain h | h := h <;> simp [State.delta, h]

theorem delta_lt_modulus (s : State) (ms : Word32) : s.delta ms < s.modulus :=
  Nat.mod_lt _ (Nat.two_pow_pos _)

/-- The reduction inside `delta` makes no difference to a deadline. -/
theorem deadlineIn_eq (s : State) (ms : Word32) :
    s.deadlineIn ms = (s.tick + (ms.toNat * s.freq.toNat + 999) / 1000) % s.modulus :=
  Nat.add_mod_mod _ _ _

/-- A wait of no ticks is over at the current tick (R108). -/
theorem deadlineIn_of_delta_eq_zero (noTicks : s.delta ms = 0) (below : s.tick < s.modulus) :
    s.deadlineIn ms = s.tick := by
  rw [State.deadlineIn, noTicks, Nat.add_zero, Nat.mod_eq_of_lt below]

/-! ### The comparator -/

theorem expired_iff : s.expired d = true ↔ s.sinceDeadline d < 2 ^ (s.par.width - 1) := decide_eq_true_iff

theorem expired_eq_false_iff : s.expired d = false ↔ 2 ^ (s.par.width - 1) ≤ s.sinceDeadline d :=
  decide_eq_false_iff_not.trans Nat.not_lt

/-- The `W`-bit subtraction is the difference of the numbers modulo `2^W`. -/
theorem coe_sinceDeadline (s : State) (d : Nat) : (s.sinceDeadline d : Int) = ((s.tick : Int) - d) % s.modulus := by
  have bound : d % s.modulus ≤ s.modulus := (Nat.mod_lt d (Nat.two_pow_pos _)).le
  calc (s.sinceDeadline d : Int)
    _ = ((s.tick : Int) - (d : Int) % s.modulus + s.modulus) % s.modulus := by
      rw [State.sinceDeadline, Int.natCast_emod, Int.natCast_add, Int.natCast_sub bound, Int.natCast_emod]
      congr 1
      omega
    _ = ((s.tick : Int) - d) % s.modulus := by rw [Int.add_emod_right, Int.sub_emod_emod]

/-- The deadline `d`, made with `k` ticks to go, is read `j` ticks later. -/
def Reading (k j d : Nat) (s : State) : Prop := ∃ t0, s.tick = (t0 + j) % s.modulus ∧ d = (t0 + k) % s.modulus

theorem Reading.coe_sinceDeadline (h : Reading k j d s) : (s.sinceDeadline d : Int) = ((j : Int) - k) % s.modulus := by
  obtain ⟨t0, tick, rfl⟩ := h
  rw [Safety.coe_sinceDeadline, tick, Int.natCast_emod, Int.natCast_emod, ← Int.sub_emod]
  congr 1
  omega

/-- From the deadline on, the difference is the number of ticks since. -/
theorem Reading.sinceDeadline_of_le (h : Reading k j d s) (past : k ≤ j) (near : j < k + s.modulus) :
    s.sinceDeadline d = j - k := by
  have since := h.coe_sinceDeadline
  rw [Int.emod_eq_of_lt (by omega) (by omega)] at since
  omega

/-- Before the deadline, the difference is `2^W` less the number of ticks to go. -/
theorem Reading.sinceDeadline_of_lt (h : Reading k j d s) (ahead : j < k) (near : k ≤ j + s.modulus) :
    s.sinceDeadline d = j + s.modulus - k := by
  have since := h.coe_sinceDeadline
  rw [← Int.add_emod_right, Int.emod_eq_of_lt (by omega) (by omega)] at since
  omega

theorem Reading.expired_of_le (h : Reading k j d s) (ok : s.par.Ok) (past : k ≤ j)
    (window : j < k + 2 ^ (s.par.width - 1)) : s.expired d = true := by
  have modulus := modulus_eq ok
  rw [expired_iff, h.sinceDeadline_of_le past (by omega)]
  omega

theorem Reading.not_expired_of_lt (h : Reading k j d s) (ok : s.par.Ok) (ahead : j < k)
    (window : k ≤ 2 ^ (s.par.width - 1)) : s.expired d = false := by
  have modulus := modulus_eq ok
  rw [expired_eq_false_iff, h.sinceDeadline_of_lt ahead (by omega)]
  omega

/-- A deadline past by half of `2^W` or more is taken for one ahead. -/
theorem Reading.not_expired_of_window_le (h : Reading k j d s) (past : k + 2 ^ (s.par.width - 1) ≤ j)
    (near : j < k + s.modulus) : s.expired d = false := by
  rw [expired_eq_false_iff, h.sinceDeadline_of_le (Nat.le_of_add_right_le past) near]
  omega

/-- A deadline ahead by more than half of `2^W` is taken for one past. -/
theorem Reading.expired_of_window_lt (h : Reading k 0 d s) (ok : s.par.Ok) (far : 2 ^ (s.par.width - 1) < k)
    (below : k < s.modulus) : s.expired d = true := by
  have modulus := modulus_eq ok
  rw [expired_iff, h.sinceDeadline_of_lt (by omega) (by omega)]
  omega

end Sys2Proof.Safety
end

section
/-! SUPPORT. Deadlines read after tick events, and `SLEEP` (R104) with tick events between its two actions. -/

namespace Sys2Proof.Safety

open Sys2Proof.Machine

variable {s u : State} {ms : Word32}

theorem SameButTick.par (h : SameButTick s u) : u.par = s.par := by
  obtain ⟨_, _, rfl⟩ := h
  rfl

theorem SameButTick.dl (h : SameButTick s u) : u.dl = s.dl := by
  obtain ⟨_, _, rfl⟩ := h
  rfl

theorem ticks_par (n : Nat) (s : State) : (ticked^[n] s).par = s.par := ((SameButTick.refl s).ticks n).par

theorem ticks_modulus (n : Nat) (s : State) : (ticked^[n] s).modulus = s.modulus :=
  congrArg (2 ^ ·.width) (ticks_par n s)

/-- A deadline made `k` ticks ahead, after `n` tick events. -/
theorem reading_ticks (k n : Nat) (below : s.tick < s.modulus) :
    Reading k n ((s.tick + k) % s.modulus) (ticked^[n] s) :=
  ⟨s.tick, by rw [ticks_modulus, ticks_tick n below], by rw [ticks_modulus]⟩

/-- The tick at hand, taken as a deadline, reads expired for fewer than `2^(W-1)` ticks to come (R108). -/
theorem expired_tick_after {n : Nat} (ok : s.par.Ok) (below : s.tick < s.modulus) (few : n < 2 ^ (s.par.width - 1)) :
    (ticked^[n] s).expired s.tick = true := by
  have reading := reading_ticks 0 n below
  rw [Nat.add_zero, Nat.mod_eq_of_lt below] at reading
  exact reading.expired_of_le (by rwa [ticks_par]) (Nat.zero_le n) (by rwa [ticks_par, Nat.zero_add])

/-- A tick count sent as an operand is read back whole (R78, R103). -/
theorem tick_operand (ok : s.par.Ok) (below : s.tick < s.modulus) :
    (BitVec.ofNat 32 s.tick).toNat % s.modulus = s.tick := by
  obtain ⟨-, width, -⟩ := ok
  have fits : s.tick < 2 ^ 32 := below.trans_le (Nat.pow_le_pow_right (by decide) width)
  rw [BitVec.toNat_ofNat, Nat.mod_eq_of_lt fits, Nat.mod_eq_of_lt below]

/-- `s` after `[s0]` of `SLEEP ms` and `n` tick events. -/
def asleep (ms : Word32) (n : Nat) (s : State) : State := ticked^[n] (sleepAction ms .s0 s)

theorem asleep_same (ms : Word32) (n : Nat) (s : State) : SameButTick (sleepAction ms .s0 s) (asleep ms n s) :=
  (SameButTick.refl _).ticks n

theorem asleep_pos (ms : Word32) (n : Nat) (s : State) : (asleep ms n s).pos = .sleep .s1 := (asleep_same ms n s).pos

theorem asleep_dl (ms : Word32) (n : Nat) (s : State) : (asleep ms n s).dl = s.deadlineIn ms := (asleep_same ms n s).dl

theorem asleep_par (ms : Word32) (n : Nat) (s : State) : (asleep ms n s).par = s.par := (asleep_same ms n s).par

/-- `[s1]` then reads a deadline made with `delta(ms)` ticks to go. -/
theorem reading_asleep (n : Nat) (below : s.tick < s.modulus) :
    Reading (s.delta ms) n (asleep ms n s).dl (asleep ms n s) := by
  rw [asleep_dl]
  exact reading_ticks (s := sleepAction ms .s0 s) (s.delta ms) n below

/-- `SLEEP` from its beginning to its first check, with `n` tick events before that. -/
theorem runs_sleep (ready : Ready (.sleep ms) s) (n : Nat) :
    Runs ([.sleep ms] ++ List.replicate n .advanceTick ++ [.sleep ms]) s (sleepAction ms .s1 (asleep ms n s)) :=
  have begins : Runs [.sleep ms] s (sleepAction ms .s0 s) := .cons (exec_sleep_begin ms ready) rfl
  have checks : Runs [.sleep ms] (asleep ms n s) (sleepAction ms .s1 (asleep ms n s)) :=
    .cons (exec_sleep ms (asleep_pos ms n s)) rfl
  (begins.append (runs_ticks n _)).append checks

/-- A check that finds the deadline expired ends the sleep. -/
theorem sleepAction_expired (ms : Word32) (h : s.expired s.dl = true) :
    sleepAction ms .s1 s = { s with rsp := 0, pos := .idle, trace := .rsp .ok 0 :: s.trace } :=
  if_pos h

/-- A check that finds it ahead changes nothing. -/
theorem sleepAction_not_expired (ms : Word32) (pos : s.pos = .sleep .s1) (h : s.expired s.dl = false) :
    sleepAction ms .s1 s = s := by
  rw [sleepAction, if_neg (Bool.eq_false_iff.mp h), ← pos]
  rfl

end Sys2Proof.Safety
end

section
/-! The obligations of the family on deadlines, the comparator and `SLEEP`. -/

namespace Sys2Proof.Scope

open Sys2Proof.Machine Sys2Proof.Safety

/-- Settles O17: `delta` is a quotient rounded up. -/
theorem deltaIsLeastTickCount : Obligations.DeltaIsLeastTickCount := fun _ _ =>
  ⟨delta_le_iff, fun stopped => delta_eq_zero (.inr stopped)⟩

/-- Settles O18: the one action of `DEADLINE` is its response. -/
theorem deadlineAnswersTickPlusDelta : Obligations.DeadlineAnswersTickPlusDelta := fun ms s =>
  ⟨rfl, fun ready => ⟨s.deadlineIn ms, deadlineIn_eq s ms, exec_deadline_begin ms ready⟩⟩

/-- Settles O19: the one action of `EXPIRED` is its response, and the comparator reduces its operand modulo `2^W`. -/
theorem expiredAnswersComparator : Obligations.ExpiredAnswersComparator := by
  refine fun x s => ⟨rfl, fun ready => ⟨_, ?_, exec_expired_begin x ready⟩⟩
  have bound : x.toNat % s.modulus ≤ s.modulus := (Nat.mod_lt _ (Nat.two_pow_pos _)).le
  rw [← State.modulus, Nat.add_sub_assoc bound]
  simp only [expired_iff, State.sinceDeadline, Nat.mod_mod]

/-- Settles O20: the difference is `j - k` modulo `2^W`, and each window is a range of it. -/
theorem comparatorWindow : Obligations.ComparatorWindow := by
  intro s t0 k j ok tick below
  have reading : Reading k j ((t0 + k) % 2 ^ s.par.width) s := ⟨t0, tick, rfl⟩
  refine ⟨?_, fun inside => ⟨?_, ?_, ?_⟩, ?_⟩
  · have since : (s.sinceDeadline ((t0 + k) % 2 ^ s.par.width) : Int) =
        ((s.tick : Int) - t0 - k) % (2 : Int) ^ s.par.width := by
      rw [coe_sinceDeadline, State.modulus]
      push_cast
      rw [Int.sub_emod_emod, Int.sub_sub]
    rw [expired_iff, ← since]
    exact_mod_cast Iff.rfl
  · exact fun ahead => reading.not_expired_of_lt ok ahead inside
  · exact fun past window => reading.expired_of_le ok past window
  · exact fun past near => reading.not_expired_of_window_le past near
  · rintro far rfl
    exact reading.expired_of_window_lt ok far below

/-- Settles O21: the deadline is the current tick, and `k` ticks later it is `k` ticks past. -/
theorem zeroDeadlineExpiresAtOnce : Obligations.ZeroDeadlineExpiresAtOnce := by
  intro s k ok below ready few
  have answer : s.deadlineIn 0 = s.tick := deadlineIn_of_delta_eq_zero (delta_eq_zero (.inl rfl)) below
  have asks := exec_deadline_begin 0 ready
  rw [answer] at asks
  have idle : (ticked^[k] (s.respond .ok (tick32 s.tick))).pos = .idle := ((SameButTick.refl _).ticks k).pos
  have expired : (ticked^[k] (s.respond .ok (tick32 s.tick))).expired s.tick = true :=
    expired_tick_after (s := s.respond .ok (tick32 s.tick)) ok below few
  have checks := exec_expired_begin (BitVec.ofNat 32 s.tick) (.inl idle)
  rw [ticks_modulus, State.respond_modulus, tick_operand ok below, if_pos expired] at checks
  exact ⟨_, _, _, asks, rfl, runs_ticks k _, checks, rfl⟩

/-- Settles O22: `[s0]` makes the deadline and `[s1]` reads it, at a place in the comparator's window or beyond it. -/
theorem sleepWaitsForDeadline : Obligations.SleepWaitsForDeadline := by
  refine fun ms s => ⟨rfl, fun ready => ?begins, fun pos late => ?ends, fun pos early => ?waits,
    fun ready ok below zero k few => ?noTicks, fun ready ok below far => ?beyond⟩
  case begins =>
    rw [exec_sleep_begin ms ready, ← State.modulus, ← deadlineIn_eq]
    rfl
  case ends => rw [exec_sleep ms pos, sleepAction_expired ms late]
  case waits => rw [exec_sleep ms pos, sleepAction_not_expired ms pos early]
  case noTicks =>
    have ofNoTicks : s.deadlineIn ms = s.tick := deadlineIn_of_delta_eq_zero (delta_eq_zero zero) below
    have reading := reading_asleep (ms := ms) k below
    rw [delta_eq_zero zero] at reading
    have expired := reading.expired_of_le (by rwa [asleep_par]) (Nat.zero_le k) (by rwa [asleep_par, Nat.zero_add])
    refine ⟨_, runs_sleep ready k, ?_⟩
    rw [sleepAction_expired ms expired]
    exact ⟨(asleep_dl ms k s).trans ofNoTicks, rfl, rfl⟩
  case beyond =>
    have expired := (reading_asleep (ms := ms) 0 below).expired_of_window_lt ok far (delta_lt_modulus s ms)
    refine ⟨_, runs_sleep ready 0, ?_⟩
    rw [sleepAction_expired ms expired]
    exact ⟨rfl, rfl⟩

/-- Settles O23: the first check reads the deadline inside the comparator's window, ahead or past. -/
theorem sleepEndsNoEarlier : Obligations.SleepEndsNoEarlier := by
  intro ms s n ready ok below inside window
  have reading := reading_asleep (ms := ms) n below
  have asleepOk : (asleep ms n s).par.Ok := by rwa [asleep_par]
  refine ⟨_, runs_sleep ready n, ?_⟩
  obtain ahead | past := Nat.lt_or_ge n (s.delta ms)
  · have waits : (asleep ms n s).pos ≠ .idle := by rw [asleep_pos]; nofun
    rw [sleepAction_not_expired ms (asleep_pos ms n s)
      (reading.not_expired_of_lt asleepOk ahead (by rwa [asleep_par]))]
    exact ⟨iff_of_false waits ahead.not_ge, fun idle => absurd idle waits⟩
  · rw [sleepAction_expired ms (reading.expired_of_le asleepOk past (by rwa [asleep_par]))]
    exact ⟨iff_of_true rfl past, fun _ => rfl⟩

end Sys2Proof.Scope
end

section
/-! SUPPORT. A wait whose deadline has expired (R115 to R119): the micro-routine returns `Timeout` in that action, and
so the operation fails, wherever the routine runs. -/

namespace Sys2Proof.Safety

open Sys2Proof.Machine

variable {s : State} {i : Instr}

/-! ### The micro-routines -/

section
variable (late : s.expired s.dl = true)
include late

theorem pollWait_expired {mask want : Byte} {ms : Word32} {at_ : PollPc → Position} {ret : Status → State → State} :
    pollWait mask want ms .p2 at_ ret s = ret .timeout s := if_pos late

theorem writeToDevice_expired {b : Byte} {arm : Bool} {at_ : WritePc → Position} {ret : Status → State → State} :
    writeToDevice b arm (.poll .p2) at_ ret s = ret .timeout s := by
  rw [writeToDevice, pollWait_expired late, if_pos rfl]

theorem readFromDevice_expired {at_ : ReadPc → Position} {ret : Status → Byte → State → State} :
    readFromDevice (.poll .p2) at_ ret s = ret .timeout 0 s := by
  rw [readFromDevice, pollWait_expired late, if_pos rfl]

theorem cmdWrite_expired {c : Byte} {at_ : CmdPc → Position} {ret : Status → State → State} :
    cmdWrite c (.poll .p2) at_ ret s = ret .timeout s := by
  rw [cmdWrite, pollWait_expired late, if_pos rfl]

theorem flush_expired {at_ : FlushPc → Position} {ret : Status → State → State} :
    flush .f2 at_ ret s = ret .timeout s := if_pos late

end

/-! ### The operations of the polling engine -/

section
variable (late : s.expired s.dl = true)
include late

theorem exec_ps2wr_expired (byte : Byte) (at2 : s.pos = .ps2wr (.poll .p2)) :
    exec (.ps2wr byte) s = .next (timedOut s) := by
  rw [exec_ps2wr byte at2, writeToDevice_expired late]
  rfl

theorem exec_ps2rd_expired (at2 : s.pos = .ps2rd (.poll .p2)) : exec .ps2rd s = .next (timedOut s) := by
  rw [exec_ps2rd at2, readFromDevice_expired late]
  rfl

theorem exec_ps2cmd_expired (cmd : Byte) (at2 : s.pos = .ps2cmd (.poll .p2)) :
    exec (.ps2cmd cmd) s = .next (timedOut s) := by
  rw [exec_ps2cmd cmd at2, cmdWrite_expired late]
  rfl

theorem exec_ps2flush_expired (at2 : s.pos = .ps2flush .f2) : exec .ps2flush s = .next (timedOut s) := by
  rw [exec_ps2flush at2, flush_expired late]
  rfl

end

/-! ### The bring-up -/

section
variable {pos : InitPc → Position}

/-- At each label of the bring-up `i` runs `ps2_init`, and answers when that fails (R121, R160, R164). -/
theorem BringsUp.routine (brings : BringsUp i pos) :
    ∃ ret, (∀ l s, s.pos = pos l → exec i s = .next (ps2Init l pos ret s)) ∧
      ∀ st v s, st ≠ .ok → ret st v s = s.respond st v := by
  obtain ⟨rfl, rfl⟩ | ⟨rfl, rfl⟩ := brings
  · exact ⟨fun st v s => s.respond st v, fun _ _ h => exec_ps2init h, fun _ _ _ _ => rfl⟩
  · exact ⟨fun st v s => if st = .ok then s.goto (.kbdinit (.reset .s0)) else s.respond st v,
      fun _ _ h => exec_kbdinit h, fun _ _ _ fails => if_neg fails⟩

/-- Where `ps2_init` fails, in the state `u`, the operation answers so. -/
theorem BringsUp.exec_fails {l : InitPc} {st : Status} {v : Word32} {u : State} (brings : BringsUp i pos)
    (failure : st ≠ .ok) (here : s.pos = pos l) (returns : ∀ ret, ps2Init l pos ret s = ret st v u) :
    exec i s = .next (u.respond st v) := by
  obtain ⟨ret, runs, fails⟩ := brings.routine
  rw [runs l s here, returns, fails _ _ _ failure]

variable (brings : BringsUp i pos) (late : s.expired s.dl = true)
include brings late

theorem BringsUp.exec_flush_expired (at2 : s.pos = pos (.flush .f2)) : exec i s = .next (timedOut s) :=
  brings.exec_fails (st := .timeout) nofun at2 fun _ => by rw [ps2Init, flush_expired late, if_pos rfl]

theorem BringsUp.exec_selfTest_expired
    (at2 : s.pos = pos (.selfCmd (.poll .p2)) ∨ s.pos = pos (.selfRead (.poll .p2))) :
    exec i s = .next { timedOut s with ctrlState := .selfTestFailed } :=
  at2.elim
    (brings.exec_fails (st := .timeout) (u := s.setCtrl .selfTestFailed) nofun · fun _ => by
      rw [ps2Init, cmdWrite_expired late, if_pos rfl])
    (brings.exec_fails (st := .timeout) (u := s.setCtrl .selfTestFailed) nofun · fun _ => by
      rw [ps2Init, readFromDevice_expired late, if_pos rfl])

theorem BringsUp.exec_portTest_expired
    (at2 : s.pos = pos (.portCmd (.poll .p2)) ∨ s.pos = pos (.portRead (.poll .p2))) :
    exec i s = .next { timedOut s with ctrlState := .portFailed } :=
  at2.elim
    (brings.exec_fails (st := .timeout) (u := s.setCtrl .portFailed) nofun · fun _ => by
      rw [ps2Init, cmdWrite_expired late, if_pos rfl])
    (brings.exec_fails (st := .timeout) (u := s.setCtrl .portFailed) nofun · fun _ => by
      rw [ps2Init, readFromDevice_expired late, if_pos rfl])

theorem BringsUp.exec_enable_expired (at2 : s.pos = pos (.enable (.poll .p2))) : exec i s = .next (timedOut s) :=
  brings.exec_fails (st := .timeout) nofun at2 fun _ => by rw [ps2Init, cmdWrite_expired late, if_pos rfl]

end

/-! ### The command protocol -/

section
variable {bytes : List Byte} {pos : SendPc → Position}

/-- At each label of its command `i` runs `send_command`, and answers when that fails (R141, R160, R164). -/
theorem Sends.failing (sends : Sends i bytes pos) :
    ∃ rearm ret, (∀ l s, s.pos = pos l → exec i s = .next (sendCommand bytes rearm l pos ret s)) ∧
      ∀ st v s, st ≠ .ok → ret st v s = s.respond st v := by
  obtain ⟨nargs, arg1, arg0, opcode, rfl, rfl, rfl⟩ | ⟨rfl, rfl, rfl⟩ | ⟨rfl, rfl, rfl⟩ := sends
  · exact ⟨_, _, fun _ _ h => exec_sendcmd nargs arg1 arg0 opcode h, fun _ _ _ _ => rfl⟩
  · exact ⟨true, fun st v s => if st = .ok then s.goto (.kbdinit .b1) else s.respond st v,
      fun _ _ h => exec_kbdinit h, fun _ _ _ fails => if_neg fails⟩
  · exact ⟨false, fun st v s => s.respond st v, fun _ _ h => exec_kbdinit h, fun _ _ _ _ => rfl⟩

/-- The response of a command, or of the wait for `0xAA`, that met a wrong byte (R146, R161). -/
theorem respond_protocolError (s : State) : s.respond .protocolError (zext32 s.ackByte) = desynchronized s := by
  have response : responseWord .protocolError ((0 : BitVec 24) ++ s.ackByte) =
      0x02#8 ++ (0 : BitVec 24) ++ s.ackByte := by
    rw [BitVec.append_assoc]
    rfl
  rw [zext32_eq, State.respond, response]
  rfl

/-- A write inside a command that finds its deadline expired latches the device (R147). -/
theorem Sends.exec_write_expired (sends : Sends i bytes pos) (late : s.expired s.dl = true)
    (at2 : s.pos = pos (.write (.poll .p2))) : exec i s = .next (latchedByTimeout (timedOut s)) := by
  obtain ⟨rearm, ret, runs, fails⟩ := sends.failing
  rw [runs _ s at2, sendCommand, writeToDevice_expired late, if_pos rfl]
  exact congrArg _ (fails _ _ _ nofun)

/-- A flush after a wrong byte that finds its deadline expired latches the device (R150). -/
theorem Sends.exec_flush_expired (sends : Sends i bytes pos) (late : s.expired s.dl = true)
    (at2 : s.pos = pos (.flush .f2)) : exec i s = .next (latchedByTimeout (desynchronized s)) := by
  obtain ⟨rearm, ret, runs, fails⟩ := sends.failing
  rw [runs _ s at2, sendCommand, flush_expired late, if_pos rfl, fails .protocolError _ _ nofun]
  exact congrArg _ (respond_protocolError (s.latch .timeout 0))

/-- The same in the wait for `0xAA` (R161, R150). -/
theorem exec_kbdinit_flush_expired (late : s.expired s.dl = true) (at2 : s.pos = .kbdinit (.flush .f2)) :
    exec .kbdinit s = .next (latchedByTimeout (desynchronized s)) := by
  rw [exec_kbdinit at2, kbdinitAction, flush_expired late, if_pos rfl]
  exact congrArg _ (respond_protocolError (s.latch .timeout 0))

end

end Sys2Proof.Safety
end

section
/-! The obligation of the family on expired waits of the polling engine. -/

namespace Sys2Proof.Scope

open Sys2Proof.Machine Sys2Proof.Safety

/-- Settles O28: the routine returns `Timeout` in the action that finds the deadline expired, and its caller answers. -/
theorem engineTimeoutAnswers : Obligations.EngineTimeoutAnswers := fun _ late =>
  ⟨exec_ps2wr_expired late, exec_ps2rd_expired late, exec_ps2cmd_expired late, exec_ps2flush_expired late,
    fun _ _ brings => ⟨brings.exec_flush_expired late, brings.exec_selfTest_expired late,
      brings.exec_portTest_expired late, brings.exec_enable_expired late⟩⟩

end Sys2Proof.Scope
end

section
/-! SUPPORT. The polls of the bring-up, and the waits of a block that no `CLKINIT` has configured: their deadline is the
current tick, so that the first check finds it expired (R197). -/

namespace Sys2Proof.Safety

open Sys2Proof.Machine

variable {s t : State} {i : Instr} {st : Byte} {rest : List Byte}

/-! ### The micro-routines inside an operation -/

/-- At the labels `at_` instruction `i` runs `cmd_write` of `c`, and `ret` after it (R118). -/
def Commands (i : Instr) (at_ : CmdPc → Position) (c : Byte) (ret : Status → State → State) : Prop :=
  ∀ k s, s.pos = at_ k → exec i s = .next (cmdWrite c k at_ ret s)

/-- At the labels `at_` instruction `i` runs `read_from_device`, and `ret` after it (R117). -/
def Receives (i : Instr) (at_ : ReadPc → Position) (ret : Status → Byte → State → State) : Prop :=
  ∀ k s, s.pos = at_ k → exec i s = .next (readFromDevice k at_ ret s)

/-- At the labels `at_` instruction `i` runs `flush`, and `ret` after it (R119). -/
def Flushes (i : Instr) (at_ : FlushPc → Position) (ret : Status → State → State) : Prop :=
  ∀ k s, s.pos = at_ k → exec i s = .next (flush k at_ ret s)

/-- An operation that does not begin with a poll meets it only at its own labels. -/
theorem pos_of_standsAt {at_ : PollPc → Position} {l : PollPc} (inner : entryOf i ≠ at_ .p0) (h : StandsAt i at_ l s) :
    s.pos = at_ l :=
  h.resolve_right fun h => inner h.2.1

theorem Commands.polls {at_ : CmdPc → Position} {c : Byte} {ret : Status → State → State}
    (commands : Commands i at_ c ret) (inner : entryOf i ≠ at_ (.poll .p0)) :
    Polls i (fun l => at_ (.poll l)) (at_ .k1) 1 false :=
  polls_of_pollWait (ret := fun r s => if r = .timeout then ret .timeout s else s.goto (at_ .k1))
    (fun l s h => commands (.poll l) s (pos_of_standsAt inner h)) inputBufferClear_iff fun _ => rfl

theorem Receives.polls {at_ : ReadPc → Position} {ret : Status → Byte → State → State}
    (receives : Receives i at_ ret) (inner : entryOf i ≠ at_ (.poll .p0)) :
    Polls i (fun l => at_ (.poll l)) (at_ .r1) 0 true :=
  polls_of_pollWait (ret := fun r s => if r = .timeout then ret .timeout 0 s else s.goto (at_ .r1))
    (fun l s h => receives (.poll l) s (pos_of_standsAt inner h)) outputBufferFull_iff fun _ => rfl

theorem flush_full {at_ : FlushPc → Position} {ret : Status → State → State}
    (full : (s.envAnswer s.par.portPs2StCmd).getLsbD 0 = true) :
    flush .f1 at_ ret s = s.readStatus.goto (at_ .f2) := if_pos full

theorem flush_empty {at_ : FlushPc → Position} {ret : Status → State → State}
    (empty : (s.envAnswer s.par.portPs2StCmd).getLsbD 0 = false) : flush .f1 at_ ret s = ret .ok s.readStatus :=
  if_neg (Bool.eq_false_iff.1 empty)

/-! ### The calls of the bring-up, and how it goes on when they return (R121) -/

section
variable {pos : InitPc → Position}

/-- The bring-up begins at `[i0]`. -/
theorem BringsUp.inner (brings : BringsUp i pos) {l : InitPc} (h : l ≠ .i0) : entryOf i ≠ pos l := by
  obtain ⟨rfl, rfl⟩ | ⟨rfl, rfl⟩ := brings
  · exact fun e => h (Position.ps2init.inj e).symm
  · exact fun e => h (KbdPc.init.inj (Position.kbdinit.inj e)).symm

variable (brings : BringsUp i pos)
include brings

theorem BringsUp.flushes :
    ∃ ret, Flushes i (fun k => pos (.flush k)) ret ∧ ∀ u, ret .ok u = u.goto (pos .i1) := by
  obtain ⟨ret, runs, -⟩ := brings.routine
  exact ⟨_, fun k s here => by rw [runs _ s here, ps2Init], fun _ => rfl⟩

theorem BringsUp.selfCmd : ∃ ret, Commands i (fun k => pos (.selfCmd k)) 0xAA ret ∧
    ∀ u, ret .ok u = u.goto (pos (.selfRead (.poll .p0))) := by
  obtain ⟨ret, runs, -⟩ := brings.routine
  exact ⟨_, fun k s here => by rw [runs _ s here, ps2Init], fun _ => rfl⟩

theorem BringsUp.selfRead : ∃ ret, Receives i (fun k => pos (.selfRead k)) ret ∧
    ∀ u, ret .ok 0x55 u = (u.setCtrl .selfTestOk).goto (pos .i2) := by
  obtain ⟨ret, runs, -⟩ := brings.routine
  exact ⟨_, fun k s here => by rw [runs _ s here, ps2Init], fun _ => rfl⟩

theorem BringsUp.portCmd : ∃ ret, Commands i (fun k => pos (.portCmd k)) 0xAB ret ∧
    ∀ u, ret .ok u = u.goto (pos (.portRead (.poll .p0))) := by
  obtain ⟨ret, runs, -⟩ := brings.routine
  exact ⟨_, fun k s here => by rw [runs _ s here, ps2Init], fun _ => rfl⟩

theorem BringsUp.portRead : ∃ ret, Receives i (fun k => pos (.portRead k)) ret ∧
    ∀ u, ret .ok 0x00 u = (u.setCtrl .portReady).goto (pos (.enable (.poll .p0))) := by
  obtain ⟨ret, runs, -⟩ := brings.routine
  exact ⟨_, fun k s here => by rw [runs _ s here, ps2Init], fun _ => rfl⟩

theorem BringsUp.enable : ∃ ret, Commands i (fun k => pos (.enable k)) 0xAE ret := by
  obtain ⟨ret, runs, -⟩ := brings.routine
  exact ⟨_, fun k s here => by rw [runs _ s here, ps2Init]⟩

end

/-! ### The other flushes -/

theorem flushes_ps2flush : Flushes .ps2flush .ps2flush fun r s => s.respond r 0 := fun _ _ => exec_ps2flush

theorem Sends.flushes {bytes : List Byte} {pos : SendPc → Position} (sends : Sends i bytes pos) :
    ∃ ret, Flushes i (fun k => pos (.flush k)) ret := by
  obtain ⟨rearm, ret, runs, -⟩ := sends.routine
  exact ⟨_, fun k s here => by rw [runs _ s here, sendCommand]⟩

theorem flushes_kbdinit : ∃ ret, Flushes .kbdinit (fun k => .kbdinit (.flush k)) ret :=
  ⟨_, fun k s here => by rw [exec_kbdinit here, kbdinitAction]⟩

/-! ### A clock that does not run -/

/-- `FREQ` is 0, as before any `CLKINIT`, and `st` is the next byte the environment answers. -/
structure Unconfigured (s : State) (st : Byte) : Prop where
  params : s.par.Ok
  tick : s.tick < s.modulus
  freq : s.freq = 0
  answers : ∃ rest, s.envq = st :: rest

section
variable (unconfigured : Unconfigured s st)
include unconfigured

theorem Unconfigured.envAnswer (ms : Word32) (p : Position) (port : Port) :
    ((s.setDeadline ms).goto p).envAnswer port = st := by
  obtain ⟨-, -, -, rest, answers⟩ := unconfigured
  exact envAnswer_cons (s := (s.setDeadline ms).goto p) answers port

/-- A wait begun and the status read once: the deadline is the current tick, and the byte lined up is read. -/
theorem Unconfigured.readStatus (ms : Word32) (p q : Position) :
    ((s.setDeadline ms).goto p).readStatus.goto q = (polledOnce s st).goto q := by
  obtain ⟨ok, below, stopped, rest, answers⟩ := unconfigured
  have noTicks : s.deadlineIn ms = s.tick := deadlineIn_of_delta_eq_zero (delta_eq_zero (.inr stopped)) below
  have lined : ((s.setDeadline ms).goto p).envq = st :: rest := answers
  rw [readStatus_lined lined]
  ext1 <;> simp [polledOnce, answers, noTicks]

/-- The check after that read finds the deadline expired (R197). -/
theorem Unconfigured.expired (q : Position) :
    ((polledOnce s st).goto q).expired ((polledOnce s st).goto q).dl = true :=
  expired_tick_after (n := 0) unconfigured.params unconfigured.tick (Nat.two_pow_pos _)

/-- A poll whose condition is not met at its first read comes to its expired deadline in the third action. -/
theorem Unconfigured.runs_poll {at_ : PollPc → Position} {done : Position} {bit : Nat} {want : Bool}
    (polls : Polls i at_ done bit want) (at0 : StandsAt i at_ .p0 s) (unmet : st.getLsbD bit = !want)
    (ends : exec i ((polledOnce s st).goto (at_ .p2)) = .next t) : Runs (List.replicate 3 i) s t := by
  have read := polls.unmet ((s.setDeadline s.par.tPollMs).goto (at_ .p1)) rfl
    (by simp [unconfigured.envAnswer, unmet])
  rw [unconfigured.readStatus] at read
  exact .cons (polls.begins s at0) (.cons read (.cons ends rfl))

/-- So does a flush that finds a byte (R119). -/
theorem Unconfigured.runs_flush {at_ : FlushPc → Position} {ret : Status → State → State} (flushes : Flushes i at_ ret)
    (begins : exec i s = .next (flush .f0 at_ ret s)) (full : st.getLsbD 0 = true)
    (ends : exec i ((polledOnce s st).goto (at_ .f2)) = .next t) : Runs (List.replicate 3 i) s t := by
  have read := flushes .f1 ((s.setDeadline s.par.tFlushMs).goto (at_ .f1)) rfl
  rw [flush_full (by rwa [unconfigured.envAnswer]), unconfigured.readStatus] at read
  exact .cons begins (.cons read (.cons ends rfl))

end

end Sys2Proof.Safety
end

section
/-! The obligation of the family on the block before any `CLKINIT`. -/

namespace Sys2Proof.Scope

open Sys2Proof.Machine Sys2Proof.Safety

/-- Settles O29: each wait comes to its check with an expired deadline, where the timeouts of O28 and of the command
protocol answer. -/
theorem unconfiguredWaitTimesOut : Obligations.UnconfiguredWaitTimesOut := by
  intro s st rest ok below stopped answers
  have h : Unconfigured s st := ⟨ok, below, stopped, rest, answers⟩
  refine ⟨fun byte ready full => ?ps2wr, fun ready empty => ?ps2rd, fun cmd ready full => ?ps2cmd,
    fun ready full => ?ps2flush, fun i pos brings => ⟨fun at0 full => ?flush, fun at0 full => ?selfCmd,
      fun at0 empty => ?selfRead, fun at0 full => ?portCmd, fun at0 empty => ?portRead, fun at0 full => ?enable⟩,
    fun i bytes pos sends => ⟨fun at0 full => ?write, fun at0 full => ?sendFlush⟩, fun at0 full => ?kbdFlush⟩
  case ps2wr =>
    exact h.runs_poll (polls_ps2wr byte) (standsAt_of_ready ready rfl) full (exec_ps2wr_expired (h.expired _) byte rfl)
  case ps2rd =>
    exact h.runs_poll polls_ps2rd (standsAt_of_ready ready rfl) empty (exec_ps2rd_expired (h.expired _) rfl)
  case ps2cmd =>
    exact h.runs_poll (polls_ps2cmd cmd) (standsAt_of_ready ready rfl) full
      (exec_ps2cmd_expired (h.expired _) cmd rfl)
  case ps2flush =>
    exact h.runs_flush flushes_ps2flush (exec_ps2flush_begin ready) full (exec_ps2flush_expired (h.expired _) rfl)
  case flush =>
    obtain ⟨ret, flushes, -⟩ := brings.flushes
    exact h.runs_flush flushes (flushes _ s at0) full (brings.exec_flush_expired (h.expired _) rfl)
  case selfCmd =>
    obtain ⟨ret, commands, -⟩ := brings.selfCmd
    exact h.runs_poll (commands.polls (brings.inner nofun)) (.inl at0) full
      (brings.exec_selfTest_expired (h.expired _) (.inl rfl))
  case selfRead =>
    obtain ⟨ret, receives, -⟩ := brings.selfRead
    exact h.runs_poll (receives.polls (brings.inner nofun)) (.inl at0) empty
      (brings.exec_selfTest_expired (h.expired _) (.inr rfl))
  case portCmd =>
    obtain ⟨ret, commands, -⟩ := brings.portCmd
    exact h.runs_poll (commands.polls (brings.inner nofun)) (.inl at0) full
      (brings.exec_portTest_expired (h.expired _) (.inl rfl))
  case portRead =>
    obtain ⟨ret, receives, -⟩ := brings.portRead
    exact h.runs_poll (receives.polls (brings.inner nofun)) (.inl at0) empty
      (brings.exec_portTest_expired (h.expired _) (.inr rfl))
  case enable =>
    obtain ⟨ret, commands⟩ := brings.enable
    exact h.runs_poll (commands.polls (brings.inner nofun)) (.inl at0) full
      (brings.exec_enable_expired (h.expired _) rfl)
  case write =>
    exact h.runs_poll (polls_send sends) (.inl at0) full (sends.exec_write_expired (h.expired _) rfl)
  case sendFlush =>
    obtain ⟨ret, flushes⟩ := sends.flushes
    exact h.runs_flush flushes (flushes _ s at0) full (sends.exec_flush_expired (h.expired _) rfl)
  case kbdFlush =>
    obtain ⟨ret, flushes⟩ := flushes_kbdinit
    exact h.runs_flush flushes (flushes _ s at0) full (exec_kbdinit_flush_expired (h.expired _) rfl)

end Sys2Proof.Scope
end

section
/-! SUPPORT. `PS2FLUSH` (R119) with stale bytes to drain and tick events between its actions. -/

namespace Sys2Proof.Safety

open Sys2Proof.Machine

/-- The registers a stale byte could have gone to (R140). -/
def destinationsOf (s : State) := (s.scanq, s.ackState, s.ackByte, s.unresp)

/-- What the environment answers while the flush still has to drain `held`, data bytes whose status has been read, and
`stale`, status bytes with the data byte after each; then the status `st` says that the buffer is empty, and `rest` is
not read. Once all are read, the port accesses of the history will be `accesses`. The bytes went nowhere since `s₀`. -/
structure Draining (s₀ : State) (stale : List (Byte × Byte)) (st : Byte) (rest : List Byte)
    (accesses : List TraceEvent) (held : List Byte) (s : State) : Prop where
  answers : s.envq = held ++ (stale.flatMap (fun p => [p.1, p.2]) ++ st :: rest)
  full : ∀ p ∈ stale, p.1.getLsbD 0 = true
  empty : st.getLsbD 0 = false
  history : .ioR s.par.portPs2StCmd st ::
    (stale.flatMap (fun p => [.ioR s.par.portPs2StCmd p.1, .ioR s.par.portPs2Data p.2])).reverse ++
      ((held.map (.ioR s.par.portPs2Data)).reverse ++ s.trace.filter isPortAccess) = accesses
  destinations : destinationsOf s = destinationsOf s₀

/-- Where `PS2FLUSH` is that still has `n` actions and `k` ticks to come. -/
inductive FlushProgress (s₀ : State) (st : Byte) (rest : List Byte) (accesses : List TraceEvent) :
    Nat → Nat → State → Prop
  | begins {stale k s} (ready : Ready .ps2flush s) (drains : Draining s₀ stale st rest accesses [] s) (ok : s.par.Ok)
      (few : k < s.delta s.par.tFlushMs) (window : s.delta s.par.tFlushMs ≤ 2 ^ (s.par.width - 1)) :
      FlushProgress s₀ st rest accesses (3 * stale.length + 2) k s
  | reads {stale k s} (pos : s.pos = .ps2flush .f1) (drains : Draining s₀ stale st rest accesses [] s)
      (ahead : Ahead k s) : FlushProgress s₀ st rest accesses (3 * stale.length + 1) k s
  | tests {stale b k s} (pos : s.pos = .ps2flush .f2) (drains : Draining s₀ stale st rest accesses [b] s)
      (ahead : Ahead k s) : FlushProgress s₀ st rest accesses (3 * stale.length + 3) k s
  | discards {stale b k s} (pos : s.pos = .ps2flush .f3) (drains : Draining s₀ stale st rest accesses [b] s)
      (ahead : Ahead k s) : FlushProgress s₀ st rest accesses (3 * stale.length + 2) k s
  | ends {k s} (pos : s.pos = .idle) (rsp : s.rsp = 0) (answers : s.envq = rest)
      (history : s.trace.filter isPortAccess = accesses) (destinations : destinationsOf s = destinationsOf s₀) :
      FlushProgress s₀ st rest accesses 0 k s

section
variable {s s₀ : State} {stale : List (Byte × Byte)} {held rest : List Byte} {st : Byte} {accesses : List TraceEvent}
  {n k : Nat}

theorem Ahead.goto (h : Ahead k s) (p : Position) : Ahead k (s.goto p) := by
  simpa [Ahead, TicksToGo] using h

theorem Ahead.readStatus (h : Ahead k s) : Ahead k s.readStatus := by
  simpa [Ahead, TicksToGo] using h

theorem Ahead.readData (h : Ahead k s) : Ahead k s.readData := by
  simpa [Ahead, TicksToGo] using h

theorem Draining.ticked (h : Draining s₀ stale st rest accesses held s) :
    Draining s₀ stale st rest accesses held (ticked s) := by
  rw [Safety.ticked, tickEvent_effect]
  exact ⟨h.answers, h.full, h.empty, h.history, h.destinations⟩

/-- A status read that finds the buffer full leaves the data byte to be read. -/
theorem Draining.readStatus {p : Byte × Byte} (h : Draining s₀ (p :: stale) st rest accesses [] s) (q : Position) :
    Draining s₀ stale st rest accesses [p.2] (s.readStatus.goto q) := by
  obtain ⟨answers, full, empty, history, destinations⟩ := h
  refine ⟨by simp [answers], fun q hq => full q (List.mem_cons_of_mem _ hq), empty, ?_,
    by simpa [destinationsOf] using destinations⟩
  have answer : s.envAnswer s.par.portPs2StCmd = p.1 := envAnswer_cons answers _
  simpa [answer, isPortAccess, List.filter_cons] using history

/-- The data read takes that byte. -/
theorem Draining.readData {b : Byte} (h : Draining s₀ stale st rest accesses [b] s) (q : Position) :
    Draining s₀ stale st rest accesses [] (s.readData.goto q) := by
  obtain ⟨answers, full, empty, history, destinations⟩ := h
  refine ⟨by simp [answers], full, empty, ?_, by simpa [destinationsOf] using destinations⟩
  have answer : s.envAnswer s.par.portPs2Data = b := envAnswer_cons answers _
  simpa [answer, isPortAccess, List.filter_cons] using history

/-- A tick between two actions leaves the flush where it is. -/
theorem FlushProgress.ticked (h : FlushProgress s₀ st rest accesses n (k + 1) s) :
    FlushProgress s₀ st rest accesses n k (ticked s) := by
  cases h with
  | begins ready drains ok few window => exact .begins ready drains.ticked ok (Nat.lt_of_succ_lt few) window
  | reads pos drains ahead => exact .reads pos drains.ticked ahead.ticked
  | tests pos drains ahead => exact .tests pos drains.ticked ahead.ticked
  | discards pos drains ahead => exact .discards pos drains.ticked ahead.ticked
  | ends pos rsp answers history destinations =>
    rw [Safety.ticked, tickEvent_effect]
    exact .ends pos rsp answers history destinations

/-- An action of the flush makes the deadline, reads the status, finds the deadline ahead, or discards a byte. -/
theorem FlushProgress.action (h : FlushProgress s₀ st rest accesses (n + 1) k s) :
    ∃ u, exec .ps2flush s = .next u ∧ FlushProgress s₀ st rest accesses n k u := by
  generalize hm : n + 1 = m at h
  cases h with
  | begins ready drains ok few window =>
    obtain rfl := Nat.succ.inj hm
    obtain ⟨answers, full, empty, history, destinations⟩ := drains
    have ahead : Ahead k (s.setDeadline s.par.tFlushMs) := ⟨ok, _, ticksToGo_setDeadline s _, few, window⟩
    exact ⟨_, exec_ps2flush_begin ready, .reads rfl ⟨answers, full, empty, history, destinations⟩ (ahead.goto _)⟩
  | @reads stale _ _ pos drains ahead =>
    obtain rfl := Nat.succ.inj hm
    cases stale with
    | nil =>
      have answer : s.envAnswer s.par.portPs2StCmd = st := envAnswer_cons drains.answers _
      have last : exec .ps2flush s = .next (s.readStatus.respond .ok 0) := by
        rw [exec_ps2flush pos, flush_empty (by rw [answer, drains.empty])]
      refine ⟨_, last, .ends rfl rfl ?_ ?_ ?_⟩
      · simp [drains.answers]
      · simpa [isPortAccess, answer, List.filter_cons] using drains.history
      · simpa [destinationsOf] using drains.destinations
    | cons p stale =>
      have answer : s.envAnswer s.par.portPs2StCmd = p.1 := envAnswer_cons drains.answers _
      have more : exec .ps2flush s = .next (s.readStatus.goto (.ps2flush .f2)) := by
        rw [exec_ps2flush pos, flush_full (by rw [answer, drains.full p List.mem_cons_self])]
      exact ⟨_, more, .tests rfl (drains.readStatus _) (ahead.readStatus.goto _)⟩
  | tests pos drains ahead =>
    obtain rfl := Nat.succ.inj hm
    have waits := exec_ps2flush pos
    rw [flush, ahead.not_expired] at waits
    obtain ⟨answers, full, empty, history, destinations⟩ := drains
    exact ⟨_, waits, .discards rfl ⟨answers, full, empty, history, destinations⟩ (ahead.goto _)⟩
  | discards pos drains ahead =>
    obtain rfl := Nat.succ.inj hm
    exact ⟨_, exec_ps2flush pos, .reads rfl (drains.readData _) (ahead.readData.goto _)⟩
  | ends => cases hm

end

end Sys2Proof.Safety
end

section
/-! The obligation of the family on a flush that drains stale bytes. -/

namespace Sys2Proof.Scope

open Sys2Proof.Machine Sys2Proof.Safety

/-- Settles O30: every action and every tick leads from one stage of the flush to the next. -/
theorem flushDrainsStaleBytes : Obligations.FlushDrainsStaleBytes := by
  intro stale st rest is s ok _ ready full empty answers window few schedule
  obtain ⟨t, runs, finished⟩ := runs_interleaved (i := .ps2flush)
    (P := FlushProgress s st rest (.ioR s.par.portPs2StCmd st ::
        (stale.flatMap (fun p => [.ioR s.par.portPs2StCmd p.1, .ioR s.par.portPs2Data p.2])).reverse ++
          s.trace.filter isPortAccess))
    nofun (fun _ _ _ h => h.ticked) (fun _ _ _ h => h.action) schedule
    (.begins ready ⟨answers, full, empty, rfl, rfl⟩ ok few window)
  generalize hn : (0 : Nat) = n at finished
  cases finished with
  | ends pos rsp left history destinations =>
    simp only [destinationsOf, Prod.mk.injEq] at destinations
    obtain ⟨scanq, ackState, ackByte, unresp⟩ := destinations
    exact ⟨t, runs, rsp, pos, left, scanq, ackState, ackByte, unresp, history⟩
  | _ => cases hn

end Sys2Proof.Scope
end

section
/-! SUPPORT. The bring-up of the controller (R121) when the buffers are ready at once and both tests are passed, and the
answer when one is failed (R122, R123). -/

namespace Sys2Proof.Safety

open Sys2Proof.Machine

variable {s : State} {i : Instr} {st st' b c : Byte} {rest : List Byte}

/-! ### The micro-routines, ready at once -/

/-- `s` at the position `p` after the status byte `st` was read and the command `c` written. -/
def commanded (s : State) (c st : Byte) (rest : List Byte) (p : Position) : State :=
  { polled s st rest p with trace := [.ioW s.par.portPs2StCmd c, .ioR s.par.portPs2StCmd st] ++ s.trace }

/-- `s` at the position `p` after the status byte `st` and the data byte `b` were read. -/
def received (s : State) (b st : Byte) (rest : List Byte) (p : Position) : State :=
  { polled s st rest p with
    cur := b, trace := [.ioR s.par.portPs2Data b, .ioR s.par.portPs2StCmd st] ++ s.trace }

/-- With the input buffer free `cmd_write` is the poll and the write. -/
theorem Commands.runs {at_ : CmdPc → Position} {ret : Status → State → State} (commands : Commands i at_ c ret)
    (inner : entryOf i ≠ at_ (.poll .p0)) (at0 : s.pos = at_ (.poll .p0)) (answers : s.envq = st :: rest)
    (free : st.getLsbD 1 = false) :
    Runs (List.replicate 3 i) s (ret .ok (commanded s c st rest (at_ .k1))) :=
  ((commands.polls inner).runs_atOnce (.inl at0) answers free).append (.cons (commands .k1 _ rfl) rfl)

/-- With a byte in the output buffer `read_from_device` is the poll and the read. -/
theorem Receives.runs {at_ : ReadPc → Position} {ret : Status → Byte → State → State} (receives : Receives i at_ ret)
    (inner : entryOf i ≠ at_ (.poll .p0)) (at0 : s.pos = at_ (.poll .p0)) (answers : s.envq = st :: b :: rest)
    (full : st.getLsbD 0 = true) :
    Runs (List.replicate 3 i) s (ret .ok b (received s b st rest (at_ .r1))) := by
  have read := receives .r1 (polled s st (b :: rest) (at_ .r1)) rfl
  rw [readFromDevice, readData_lined rfl] at read
  exact ((receives.polls inner).runs_atOnce (.inl at0) answers full).append (.cons read rfl)

/-- `s` at the position `p` after a flush that found nothing to drain, from the status byte `st`. -/
def flushed (s : State) (st : Byte) (rest : List Byte) (p : Position) : State :=
  { s with
    dl := s.deadlineIn s.par.tFlushMs, sreg := st, envq := rest, pos := p,
    trace := .ioR s.par.portPs2StCmd st :: s.trace }

/-- With nothing to drain `flush` makes its deadline and reads the status once. -/
theorem Flushes.runs_empty {at_ : FlushPc → Position} {ret : Status → State → State} (flushes : Flushes i at_ ret)
    (at0 : s.pos = at_ .f0) (answers : s.envq = st :: rest) (empty : st.getLsbD 0 = false) :
    Runs [i, i] s (ret .ok (flushed s st rest (at_ .f1))) := by
  have lined : ((s.setDeadline s.par.tFlushMs).goto (at_ .f1)).envq = st :: rest := answers
  have read := flushes .f1 ((s.setDeadline s.par.tFlushMs).goto (at_ .f1)) rfl
  rw [flush_empty (by rwa [envAnswer_cons lined]), readStatus_lined lined] at read
  exact .cons (flushes .f0 s at0) (.cons read rfl)

/-! ### A test passed -/

/-- `s` at the position `p` after a controller test: the command `c`, its response `b`, and the two status bytes. -/
def tested (s : State) (ctrl : CtrlState) (c b st st' : Byte) (rest : List Byte) (p : Position) : State :=
  { received (commanded s c st (st' :: b :: rest) p) b st' rest p with ctrlState := ctrl }

/-- A controller test is the action that begins it, the command write, and the response read. -/
theorem runs_test {atC : CmdPc → Position} {atR : ReadPc → Position} {retC : Status → State → State}
    {retR : Status → Byte → State → State} {pending passed : CtrlState} {p : Position}
    (commands : Commands i atC c retC) (receives : Receives i atR retR)
    (goesOn : ∀ u, retC .ok u = u.goto (atR (.poll .p0))) (passes : ∀ u, retR .ok b u = (u.setCtrl passed).goto p)
    (innerC : entryOf i ≠ atC (.poll .p0)) (innerR : entryOf i ≠ atR (.poll .p0))
    (begins : exec i s = .next ((s.setCtrl pending).goto (atC (.poll .p0)))) (answers : s.envq = st :: st' :: b :: rest)
    (free : st.getLsbD 1 = false) (full : st'.getLsbD 0 = true) :
    Runs (List.replicate 7 i) s (tested s passed c b st st' rest p) := by
  have writes := commands.runs (s := (s.setCtrl pending).goto (atC (.poll .p0))) innerC rfl answers free
  rw [goesOn] at writes
  have reads := receives.runs (s := (commanded ((s.setCtrl pending).goto (atC (.poll .p0))) c st (st' :: b :: rest)
    (atC .k1)).goto (atR (.poll .p0))) innerR rfl rfl full
  rw [passes] at reads
  exact .cons begins (writes.append reads)

section
variable {pos : InitPc → Position} (brings : BringsUp i pos)
include brings

theorem BringsUp.runs_selfTest (at1 : s.pos = pos .i1) (answers : s.envq = st :: st' :: 0x55 :: rest)
    (free : st.getLsbD 1 = false) (full : st'.getLsbD 0 = true) :
    Runs (List.replicate 7 i) s (tested s .selfTestOk 0xAA 0x55 st st' rest (pos .i2)) := by
  obtain ⟨ret, runs, -⟩ := brings.routine
  obtain ⟨retC, commands, goesOn⟩ := brings.selfCmd
  obtain ⟨retR, receives, passes⟩ := brings.selfRead
  exact runs_test commands receives goesOn passes (brings.inner nofun) (brings.inner nofun) (runs _ s at1) answers
    free full

theorem BringsUp.runs_portTest (at2 : s.pos = pos .i2) (answers : s.envq = st :: st' :: 0x00 :: rest)
    (free : st.getLsbD 1 = false) (full : st'.getLsbD 0 = true) :
    Runs (List.replicate 7 i) s (tested s .portReady 0xAB 0x00 st st' rest (pos (.enable (.poll .p0)))) := by
  obtain ⟨ret, runs, -⟩ := brings.routine
  obtain ⟨retC, commands, goesOn⟩ := brings.portCmd
  obtain ⟨retR, receives, passes⟩ := brings.portRead
  exact runs_test commands receives goesOn passes (brings.inner nofun) (brings.inner nofun) (runs _ s at2) answers
    free full

/-- The bring-up up to the write that enables the port: the first action, the flush, the two tests, the last poll. -/
theorem BringsUp.runs_untilEnable {c0 c1 c2 c3 o1 o2 : Byte}
    (begins : exec i s = .next (({ s with unresp := false }.setCtrl .uninit).goto (pos (.flush .f0))))
    (answers : s.envq = c0 :: c1 :: o1 :: 0x55 :: c2 :: o2 :: 0x00 :: c3 :: rest)
    (empty : c0.getLsbD 0 = false) (free1 : c1.getLsbD 1 = false) (free2 : c2.getLsbD 1 = false)
    (free3 : c3.getLsbD 1 = false) (full1 : o1.getLsbD 0 = true) (full2 : o2.getLsbD 0 = true) :
    Runs (List.replicate 19 i) s { s with
      unresp := false, ctrlState := .portReady, dl := s.deadlineIn s.par.tPollMs, sreg := c3, cur := 0x00,
      envq := rest, pos := pos (.enable .k1),
      trace := .ioR s.par.portPs2StCmd c3 ::
        .ioR s.par.portPs2Data 0x00 :: .ioR s.par.portPs2StCmd o2 :: .ioW s.par.portPs2StCmd 0xAB ::
        .ioR s.par.portPs2StCmd c2 :: .ioR s.par.portPs2Data 0x55 :: .ioR s.par.portPs2StCmd o1 ::
        .ioW s.par.portPs2StCmd 0xAA :: .ioR s.par.portPs2StCmd c1 :: .ioR s.par.portPs2StCmd c0 :: s.trace } := by
  obtain ⟨retF, flushes, goesOn⟩ := brings.flushes
  obtain ⟨retC, commands⟩ := brings.enable
  have drains := flushes.runs_empty (s := ({ s with unresp := false }.setCtrl .uninit).goto (pos (.flush .f0)))
    rfl answers empty
  rw [goesOn] at drains
  have whole := Runs.cons begins <| drains.append <| Runs.append (brings.runs_selfTest rfl rfl free1 full1) <|
    Runs.append (brings.runs_portTest rfl rfl free2 full2) <|
      (commands.polls (brings.inner nofun)).runs_atOnce (.inl rfl) rfl free3
  refine (congrArg (Runs (List.replicate 19 i) s) ?_).mp whole
  ext1 <;> simp [polled, tested, received, commanded, flushed, State.deadlineIn, State.delta, State.modulus]

end

/-! ### A test failed -/

/-- A byte under another one, as a number (R78). -/
theorem pair32_eq (hi lo : Byte) : pair32 hi lo = BitVec.ofNat 32 (hi.toNat * 2 ^ 8 + lo.toNat) := by
  apply BitVec.eq_of_toNat_eq
  have := hi.isLt
  have := lo.isLt
  rw [pair32, toNat_append_eq, toNat_append_eq, BitVec.toNat_ofNat]
  simp
  omega

section
variable {pos : InitPc → Position} (brings : BringsUp i pos) (answers : s.envq = b :: rest)
include brings answers

/-- The read of a wrong response makes the state failed and answers the test with that byte. -/
theorem BringsUp.exec_fault {l : InitPc} {ctrl : CtrlState} {test : Byte} {v : Word32} (value : pair32 test b = v)
    (here : s.pos = pos l)
    (returns : ∀ ret, ps2Init l pos ret s = ret .controllerFault (pair32 test b) (s.readData.setCtrl ctrl)) :
    exec i s = .next { s with
      ctrlState := ctrl, cur := b, envq := rest, rsp := 0x03#8 ++ v, pos := .idle,
      trace := .rsp .controllerFault v :: .ioR s.par.portPs2Data b :: s.trace } := by
  have fault := brings.exec_fails (st := .controllerFault) nofun here returns
  rw [readData_lined answers, value] at fault
  exact fault

theorem BringsUp.exec_selfTest_failed (wrong : b ≠ 0x55) (here : s.pos = pos (.selfRead .r1)) :
    exec i s = .next { s with
      ctrlState := .selfTestFailed, cur := b, envq := rest, rsp := 0x03#8 ++ BitVec.ofNat 32 b.toNat, pos := .idle,
      trace := .rsp .controllerFault (BitVec.ofNat 32 b.toNat) :: .ioR s.par.portPs2Data b :: s.trace } :=
  brings.exec_fault answers (test := 0) (by simp [pair32_eq]) here fun ret => by
    rw [ps2Init, readFromDevice, if_neg nofun, State.readData_cur, envAnswer_cons answers, if_pos wrong]

theorem BringsUp.exec_portTest_failed (wrong : b ≠ 0x00) (here : s.pos = pos (.portRead .r1)) :
    exec i s = .next { s with
      ctrlState := .portFailed, cur := b, envq := rest, rsp := 0x03#8 ++ BitVec.ofNat 32 (0x100 + b.toNat),
      pos := .idle,
      trace := .rsp .controllerFault (BitVec.ofNat 32 (0x100 + b.toNat)) :: .ioR s.par.portPs2Data b :: s.trace } :=
  brings.exec_fault answers (test := 1) (by simp [pair32_eq]) here fun ret => by
    rw [ps2Init, readFromDevice, if_neg nofun, State.readData_cur, envAnswer_cons answers, if_pos wrong]

end

end Sys2Proof.Safety
end

section
/-! The obligations of the family on the bring-up, passed and failed. -/

namespace Sys2Proof.Scope

open Sys2Proof.Machine Sys2Proof.Safety

/-- Settles O31: the bring-up up to its last write, and that write, after which `PS2INIT` answers. -/
theorem ps2initBringsUpController : Obligations.Ps2initBringsUpController := by
  refine ⟨rfl, fun c0 c1 c2 c3 o1 o2 rest s ready answers empty free1 free2 free3 full1 full2 => ?_⟩
  have brings : BringsUp .ps2init .ps2init := .inl ⟨rfl, rfl⟩
  exact (brings.runs_untilEnable (exec_ps2init_begin ready) answers empty free1 free2 free3 full1 full2).append
    (.cons (exec_ps2init rfl) rfl)

/-- Settles O32: the read of the wrong response makes the state failed and answers it. -/
theorem controllerTestFailureFaults : Obligations.ControllerTestFailureFaults := by
  intro b rest s answers
  have ps2init : BringsUp .ps2init .ps2init := .inl ⟨rfl, rfl⟩
  have kbdinit : BringsUp .kbdinit fun l => .kbdinit (.init l) := .inr ⟨rfl, rfl⟩
  exact ⟨fun wrong => ⟨ps2init.exec_selfTest_failed answers wrong, kbdinit.exec_selfTest_failed answers wrong⟩,
    fun wrong => ⟨ps2init.exec_portTest_failed answers wrong, kbdinit.exec_portTest_failed answers wrong⟩⟩

end Sys2Proof.Scope
end

section
/-! SUPPORT. The frames of the operations that wait on the controller (R116 to R119, R121). -/

namespace Sys2Proof.Safety

open Sys2Proof.Machine

variable {s t : State}

/-- The state without what `ps2_init` and a response write, and without the answers used up. -/
def outsideBringUp (s : State) : State :=
  { s with
    dl := 0, sreg := 0, cur := 0, unresp := false, ctrlState := .uninit, rsp := 0, pos := .idle, envq := [],
    draws := 0, trace := [] }

section
variable (s)

@[simp] theorem outsideBringUp_goto (p : Position) : outsideBringUp (s.goto p) = outsideBringUp s := rfl
@[simp] theorem outsideBringUp_respond (st : Status) (v : Word32) :
    outsideBringUp (s.respond st v) = outsideBringUp s := rfl
@[simp] theorem outsideBringUp_setDeadline (ms : Word32) : outsideBringUp (s.setDeadline ms) = outsideBringUp s := rfl
@[simp] theorem outsideBringUp_readStatus : outsideBringUp s.readStatus = outsideBringUp s := by
  simp [outsideBringUp]
@[simp] theorem outsideBringUp_readData : outsideBringUp s.readData = outsideBringUp s := by
  simp [outsideBringUp]
@[simp] theorem outsideBringUp_ioWrite (p : Port) (b : Byte) : outsideBringUp (s.ioWrite p b) = outsideBringUp s := rfl
@[simp] theorem outsideBringUp_setCtrl (c : CtrlState) : outsideBringUp (s.setCtrl c) = outsideBringUp s := rfl
@[simp] theorem outsideBringUp_unlatch : outsideBringUp { s with unresp := false } = outsideBringUp s := rfl

end

/-- What `PS2INIT` leaves. -/
def BringsUpOnly (s t : State) : Prop := outsideBringUp t = outsideBringUp s

/-- What `PS2RD` and `PS2FLUSH` leave: they write neither the latch nor the controller's state. -/
def ReadsOnly (s t : State) : Prop := BringsUpOnly s t ∧ t.unresp = s.unresp ∧ t.ctrlState = s.ctrlState

/-- What `PS2WR` and `PS2CMD` leave: they do not read the data port either. -/
def PollsOnly (s t : State) : Prop := ReadsOnly s t ∧ t.cur = s.cur

theorem BringsUpOnly.frame (h : BringsUpOnly s t) : t = { s with
    dl := t.dl, sreg := t.sreg, cur := t.cur, unresp := t.unresp, ctrlState := t.ctrlState, rsp := t.rsp,
    pos := t.pos, envq := t.envq, draws := t.draws, trace := t.trace } :=
  congrArg (fun u : State => { u with
    dl := t.dl, sreg := t.sreg, cur := t.cur, unresp := t.unresp, ctrlState := t.ctrlState, rsp := t.rsp,
    pos := t.pos, envq := t.envq, draws := t.draws, trace := t.trace }) h

theorem ReadsOnly.frame (h : ReadsOnly s t) : t = { s with
    dl := t.dl, sreg := t.sreg, cur := t.cur, rsp := t.rsp, pos := t.pos, envq := t.envq, draws := t.draws,
    trace := t.trace } := by
  obtain ⟨others, unresp, ctrlState⟩ := h
  exact others.frame.trans (by rw [unresp, ctrlState])

theorem PollsOnly.frame (h : PollsOnly s t) : t = { s with
    dl := t.dl, sreg := t.sreg, rsp := t.rsp, pos := t.pos, envq := t.envq, draws := t.draws, trace := t.trace } := by
  obtain ⟨reads, cur⟩ := h
  exact reads.frame.trans (by rw [cur])

theorem ReadsOnly.ctrlState (h : ReadsOnly s t) : t.ctrlState = s.ctrlState := h.2.2

theorem PollsOnly.ctrlState (h : PollsOnly s t) : t.ctrlState = s.ctrlState := h.1.ctrlState

theorem ps2wr_pollsOnly (byte : Byte) (l : WritePc) :
    PollsOnly s (writeToDevice byte false l .ps2wr (fun r s => s.respond r 0) s) := by
  refine writeToDevice_elim (P := PollsOnly s) l ?_ ?_ ?_ ?_ ?_ ?_ ?_ <;> simp [PollsOnly, ReadsOnly, BringsUpOnly]

theorem ps2cmd_pollsOnly (cmd : Byte) (l : CmdPc) :
    PollsOnly s (cmdWrite cmd l .ps2cmd (fun r s => s.respond r 0) s) := by
  refine cmdWrite_elim (P := PollsOnly s) l ?_ ?_ ?_ ?_ ?_ ?_ <;> simp [PollsOnly, ReadsOnly, BringsUpOnly]

theorem ps2rd_readsOnly (l : ReadPc) :
    ReadsOnly s (readFromDevice l .ps2rd (fun r b s => s.respond r (zext32 b)) s) := by
  refine readFromDevice_elim (P := ReadsOnly s) l ?_ ?_ ?_ ?_ ?_ ?_ <;> simp [ReadsOnly, BringsUpOnly]

theorem ps2flush_readsOnly (l : FlushPc) : ReadsOnly s (flush l .ps2flush (fun r s => s.respond r 0) s) := by
  refine flush_elim (P := ReadsOnly s) l ?_ ?_ ?_ ?_ ?_ ?_ <;> simp [ReadsOnly, BringsUpOnly]

/-- Each action of `ps2_init` itself, and of each micro-routine it calls (R121). -/
theorem ps2init_bringsUpOnly (l : InitPc) : BringsUpOnly s (ps2Init l .ps2init (fun st v s => s.respond st v) s) := by
  refine ps2Init_elim (P := BringsUpOnly s) l ?i0 ?i1 ?i2 (fun k _ => ?flush) (fun k _ => ?selfCmd)
    (fun k _ => ?selfRead) (fun k _ => ?portCmd) (fun k _ => ?portRead) (fun k _ => ?enable)
  case i0 | i1 | i2 => simp [BringsUpOnly]
  case flush => refine flush_elim (P := BringsUpOnly s) k ?_ ?_ ?_ ?_ ?_ ?_ <;> simp [BringsUpOnly]
  case selfCmd | portCmd | enable =>
    refine cmdWrite_elim (P := BringsUpOnly s) k ?_ ?_ ?_ ?_ ?_ ?_ <;> simp [BringsUpOnly]
  case selfRead | portRead =>
    refine readFromDevice_elim (P := BringsUpOnly s) k ?_ ?_ ?_ ?_ ?_ (fun _ => ?read)
    case read =>
      split_ifs <;> simp [BringsUpOnly]
    all_goals simp [BringsUpOnly]

end Sys2Proof.Safety
end

section
/-! The obligation of the family on the frames of the operations that wait on the controller. -/

namespace Sys2Proof.Scope

open Sys2Proof.Machine Sys2Proof.Safety

/-- Settles O52: each operation has the frame of the one action it runs. -/
theorem frameOfPollingOperations : Obligations.FrameOfPollingOperations := by
  refine fun i s t he => ⟨?polls, ?reads, ?ps2init⟩
  case polls =>
    rintro (⟨byte, rfl⟩ | ⟨cmd, rfl⟩)
    · obtain ⟨l, -, rfl⟩ := exec_ps2wr_next byte he
      exact (ps2wr_pollsOnly byte l).frame
    · obtain ⟨l, -, rfl⟩ := exec_ps2cmd_next cmd he
      exact (ps2cmd_pollsOnly cmd l).frame
  case reads =>
    rintro (rfl | rfl)
    · obtain ⟨l, -, rfl⟩ := exec_ps2rd_next he
      exact (ps2rd_readsOnly l).frame
    · obtain ⟨l, -, rfl⟩ := exec_ps2flush_next he
      exact (ps2flush_readsOnly l).frame
  case ps2init =>
    rintro rfl
    obtain ⟨l, -, rfl⟩ := exec_ps2init_next he
    exact (ps2init_bringsUpOnly l).frame

end Sys2Proof.Scope
end

section
/-! SUPPORT. What an action does to `CTRL_STATE` (R120): only `ps2_init` writes it. -/

namespace Sys2Proof.Safety

open Sys2Proof.Machine

variable {s : State} {i : Instr} {p : Position}

/-- `CTRL_STATE` after the action at a label of `ps2_init`, or after an action elsewhere: the table of R120. -/
def ctrlStateAfter (l : Option InitPc) (s : State) : CtrlState :=
  match l with
  | some .i0 => .uninit
  | some .i1 => .selfTestPending
  | some (.selfCmd (.poll .p2)) => if s.expired s.dl then .selfTestFailed else s.ctrlState
  | some (.selfRead (.poll .p2)) => if s.expired s.dl then .selfTestFailed else s.ctrlState
  | some (.selfRead .r1) => if s.envAnswer s.par.portPs2Data = 0x55 then .selfTestOk else .selfTestFailed
  | some .i2 => .portTestPending
  | some (.portCmd (.poll .p2)) => if s.expired s.dl then .portFailed else s.ctrlState
  | some (.portRead (.poll .p2)) => if s.expired s.dl then .portFailed else s.ctrlState
  | some (.portRead .r1) => if s.envAnswer s.par.portPs2Data = 0x00 then .portReady else .portFailed
  | some (.enable .k1) => .deviceEnabled
  | _ => s.ctrlState

section
variable {ret : Status → Word32 → State → State} (keeps : ∀ st v u, (ret st v u).ctrlState = u.ctrlState)
include keeps

/-- `ps2_init` writes it as the table says, whatever the caller that does not write it goes on with. -/
theorem ps2Init_ctrlState {at_ : InitPc → Position} (l : InitPc) :
    (ps2Init l at_ ret s).ctrlState = ctrlStateAfter (some l) s := by
  refine ps2Init_elim (P := fun u => u.ctrlState = ctrlStateAfter (some l) s) l ?i0 ?i1 ?i2 (fun k e => ?flush)
    (fun k e => ?selfCmd) (fun k e => ?selfRead) (fun k e => ?portCmd) (fun k e => ?portRead) (fun k e => ?enable)
  case i0 | i1 | i2 =>
    rintro rfl
    rfl
  case flush =>
    rw [e]
    refine flush_elim (P := fun u => u.ctrlState = s.ctrlState) k ?_ ?_ ?_ ?_ ?_ ?_ <;> simp [keeps]
  case selfCmd | portCmd | enable =>
    refine cmdWrite_elim (P := fun u => u.ctrlState = ctrlStateAfter (some l) s) k ?_ ?_ ?_ ?_ ?_ ?_ <;>
      rintro rfl <;> simp +contextual [e, ctrlStateAfter, keeps]
  case selfRead | portRead =>
    refine readFromDevice_elim (P := fun u => u.ctrlState = ctrlStateAfter (some l) s) k ?_ ?_ ?_ ?_ ?_ ?read
    case read =>
      rintro rfl
      simp only [e, ctrlStateAfter, reduceCtorEq, if_false, ne_eq, ite_not]
      split_ifs <;> simp [keeps]
    all_goals rintro rfl; simp +contextual [e, ctrlStateAfter, keeps]

/-- `send_command` does not write it, if the caller does not. -/
theorem sendCommand_ctrlState {bytes : List Byte} {rearm : Bool} {at_ : SendPc → Position} (l : SendPc) :
    (sendCommand bytes rearm l at_ ret s).ctrlState = s.ctrlState := by
  refine sendCommand_elim (P := fun u => u.ctrlState = s.ctrlState) l ?_ ?_ (fun k _ => ?write) (fun _ => ?await) ?_ ?_
    (fun k _ => ?flush)
  case write =>
    refine writeToDevice_elim (P := fun u => u.ctrlState = s.ctrlState) k ?_ ?_ ?_ ?_ ?_ ?_ ?_ <;> simp [keeps]
  case await =>
    refine awaitAction_elim (P := fun u => u.ctrlState = s.ctrlState) ?_ ?_ ?_ ?_ ?_ ?_ ?_ ?_ ?_ <;> simp [keeps]
  case flush =>
    refine flush_elim (P := fun u => u.ctrlState = s.ctrlState) k ?_ ?_ ?_ ?_ ?_ ?_ <;> simp [keeps]
  all_goals simp [keeps]

end

theorem batAction_ctrlState : (batAction s).ctrlState = s.ctrlState := by
  unfold batAction
  split
  all_goals split <;> rfl

theorem kbdinitAction_ctrlState (l : KbdPc) :
    (kbdinitAction l s).ctrlState = ctrlStateAfter (initLabel (.kbdinit l)) s := by
  cases l with
  | init l =>
    refine ps2Init_ctrlState (fun st v u => ?_) l
    split <;> rfl
  | reset l =>
    refine sendCommand_ctrlState (fun st v u => ?_) l
    split <;> rfl
  | enable l => exact sendCommand_ctrlState (ret := fun st v s => s.respond st v) (fun _ _ _ => rfl) l
  | b1 => exact batAction_ctrlState
  | b2 | b3 => rfl
  | flush l => 
    refine flush_elim (P := fun u => u.ctrlState = s.ctrlState) l ?_ ?_ ?_ ?_ ?_ ?_ <;> simp

theorem ActionAt.ctrlState {f : State → State} (action : ActionAt i p f) (s : State) :
    (f s).ctrlState = ctrlStateAfter (initLabel p) s := by
  cases action with
  | clkinit freq l => rw [clkinitAction_frame rfl]; rfl
  | gettick | deadline | expired => rfl
  | sleep ms l => rw [sleepAction_frame rfl]; rfl
  | ps2wr byte l => exact (ps2wr_pollsOnly byte l).ctrlState
  | ps2rd l => exact (ps2rd_readsOnly l).ctrlState
  | ps2flush l => exact (ps2flush_readsOnly l).ctrlState
  | ps2cmd cmd l => exact (ps2cmd_pollsOnly cmd l).ctrlState
  | ps2init l => exact ps2Init_ctrlState (ret := fun st v s => s.respond st v) (fun _ _ _ => rfl) l
  | sendcmd nargs arg1 arg0 opcode l =>
    exact sendCommand_ctrlState (ret := fun st v s => s.respond st v) (fun _ _ _ => rfl) l
  | scanpop => rw [scanpopAction_frame rfl]; rfl
  | kbdinit l => exact kbdinitAction_ctrlState l

/-- In `ps2_init` the invariant gives `CTRL_STATE` at the label (R120). -/
theorem ctrlAtInit_of_initLabel {c : CtrlState} {l : InitPc} (here : initLabel p = some l) (h : ctrlAt p c) :
    ctrlAtInit l c := by
  cases p with
  | ps2init k =>
    cases here
    exact h
  | kbdinit k =>
    cases k <;> cases here
    exact h
  | _ => cases here

/-- From the state the invariant gives at a label, the table leads along an arrow of R120. -/
theorem ctrlStateAfter_follows_arrow {l : Option InitPc} (h : ∀ k, l = some k → ctrlAtInit k s.ctrlState) :
    ctrlStateAfter l s = s.ctrlState ∨ ctrlStateAfter l s = .uninit ∨
    (s.ctrlState, ctrlStateAfter l s) ∈ [(CtrlState.uninit, CtrlState.selfTestPending),
      (.selfTestPending, .selfTestOk), (.selfTestPending, .selfTestFailed), (.selfTestOk, .portTestPending),
      (.portTestPending, .portReady), (.portTestPending, .portFailed), (.portReady, .deviceEnabled)] := by
  unfold ctrlStateAfter
  split
  case h_11 => exact .inl rfl
  case h_1 => exact .inr (.inl rfl)
  all_goals
    have here := h _ rfl
    simp only [ctrlAtInit] at here
    rw [here]
  case h_2 | h_6 | h_10 => simp
  case h_3 | h_4 | h_5 | h_7 | h_8 | h_9 => split_ifs <;> simp

end Sys2Proof.Safety
end

section
/-! The obligations of the family on the transitions of `CTRL_STATE`. -/

namespace Sys2Proof.Scope

open Sys2Proof.Machine Sys2Proof.Safety

/-- Settles O33: the action of the operation in progress writes `CTRL_STATE` as the table says. -/
theorem controllerStateTransitions : Obligations.ControllerStateTransitions := by
  intro i s t he busy own
  have request : i ≠ .advanceTick ∧ i ≠ .kbdByte := by
    constructor <;> rintro rfl <;> exact busy (op_eq_idle_iff.1 own.symm)
  obtain ⟨p, f, hp, action, rfl, -⟩ := exec_request_next request he
  obtain rfl := positionFor_busy busy hp
  exact action.ctrlState s

/-- Settles O34: an action follows the table, from the state that the invariant gives at its label; an event, HOST and
the idle block leave `CTRL_STATE`. -/
theorem controllerStateFollowsArrows : Obligations.ControllerStateFollowsArrows := by
  intro s t inv hs
  obtain ⟨rest, -, rfl⟩ | ⟨w, rest, e, inputs, draws, -, ⟨rfl, -⟩ | ⟨rfl, -⟩, he⟩ | ⟨-, -, -, rfl⟩ |
    ⟨w, rest, -, -, -, rfl⟩ | ⟨i, -, busy, decoded, he⟩ := step_next hs
  · exact .inr (.inl rfl)
  · cases he
    exact .inl rfl
  · rw [exec_kbdByte, kbdEvent_effect] at he
    cases he
    exact .inl rfl
  · exact .inl rfl
  · refine .inl ?_
    cases hd : decodeRequest w with
    | ok i => rw [accept_legal hd]; rfl
    | error e => rw [accept_illegal hd]; rfl
  · obtain ⟨j, decoded', own⟩ := inv.request busy
    cases decoded.symm.trans decoded'
    have next := controllerStateTransitions i (sampled s) t he busy own
    rw [next]
    exact ctrlStateAfter_follows_arrow (s := sampled s) fun k here => ctrlAtInit_of_initLabel here inv.ctrl

end Sys2Proof.Scope
end

section
/-! The obligation of the family on the write of a command byte. -/

namespace Sys2Proof.Scope

open Sys2Proof.Machine Sys2Proof.Safety

/-- Settles O39: `[w1]` writes the byte at `IDX`, arms the slot, and goes on at `[s1]`. -/
theorem writeArmsSlot : Obligations.WriteArmsSlot := by
  intro i bytes pos b s sends here byte
  obtain ⟨rearm, ret, runs, -⟩ := sends.routine
  have current : bytes.getD s.idx 0 = b := by rw [List.getD_eq_getElem?_getD, byte, Option.getD_some]
  rw [runs _ s here, sendCommand, current]
  rfl

end Sys2Proof.Scope
end

section
/-! SUPPORT. The cases of the keyboard event and of `SCANPOP` (R140, R151). -/

namespace Sys2Proof.Safety

open Sys2Proof.Machine

variable {s : State}

/-- A queue that is unbounded or below its capacity has room (R27). -/
theorem queueHasRoom_of_below (below : ∀ cap, s.par.scanqCap = some cap → s.scanq.length < cap) :
    s.queueHasRoom = true := by
  cases hc : s.par.scanqCap with
  | none => exact queueHasRoom_unbounded hc
  | some cap => exact (queueHasRoom_iff hc).2 (below cap hc)

/-- A queue at its capacity has no room (R27). -/
theorem noRoom_of_full {cap : Nat} (bounded : s.par.scanqCap = some cap) (full : cap ≤ s.scanq.length) :
    s.queueHasRoom = false :=
  Bool.eq_false_iff.2 fun room => full.not_gt ((queueHasRoom_iff bounded).1 room)

theorem scanpopAction_nil (h : s.scanq = []) : scanpopAction s = s.respond .empty 0 := by
  rw [scanpopAction, h]

theorem scanpopAction_cons {b : Byte} {rest : List Byte} (h : s.scanq = b :: rest) :
    scanpopAction s = { s with scanq := rest }.respond .ok (zext32 b) := by
  rw [scanpopAction, h]

end Sys2Proof.Safety
end

section
/-! The obligations of the family on the keyboard event and the scancode queue. -/

namespace Sys2Proof.Scope

open Sys2Proof.Machine Sys2Proof.Safety

/-- Settles O35: the slot is armed, or the queue has room, or it is full. -/
theorem kbdByteRoutesByte : Obligations.KbdByteRoutesByte := by
  refine ⟨rfl, fun b rest s lined => ?_⟩
  rw [exec_kbdByte, kbdEvent_effect]
  simp only [envAnswer_cons lined, lined]
  refine ⟨fun armed => ?armed, fun unarmed below => ?queued, fun cap unarmed bounded full => ?dropped⟩
  case armed => simp [armed, ackClass]
  case queued => simp [unarmed, queueHasRoom_of_below below]
  case dropped => simp [unarmed, noRoom_of_full bounded full]

/-- Settles O37: `[o1]` looks at the head of the queue. -/
theorem scanpopTakesOldestByte : Obligations.ScanpopTakesOldestByte := by
  refine ⟨rfl, fun s ready => ?_⟩
  rw [exec_scanpop_begin ready]
  refine ⟨fun empty => ?empty, fun b rest queue => ?oldest⟩
  case empty =>
    rw [scanpopAction_nil empty]
    rfl
  case oldest => rw [scanpopAction_cons queue, respond_byte]

end Sys2Proof.Scope
end

section
/-! SUPPORT. How a command begins (R141), what `[s1]` does with each response (R144, R145, R148), and how a timeout
and a desync end it (R146, R147). -/

namespace Sys2Proof.Safety

open Sys2Proof.Machine

variable {s : State} {i : Instr} {bytes : List Byte} {pos : SendPc → Position}

/-- A command of a usable device begins at the poll before its first byte (R141). -/
theorem Sends.exec_begins (sends : Sends i bytes pos)
    (start : s.pos = pos .s0 ∨ (s.pos = .idle ∧ entryOf i = pos .s0)) (usable : s.unresp = false) :
    exec i s = .next ({ s with idx := 0, retries := 0 }.goto (pos (.write (.poll .p0)))) := by
  obtain at0 | ⟨idle, entry⟩ := start
  · obtain ⟨rearm, ret, runs, -⟩ := sends.routine
    rw [runs _ s at0, sendCommand, usable, if_neg Bool.false_ne_true]
  · obtain ⟨nargs, arg1, arg0, opcode, rfl, -, rfl⟩ | ⟨rfl, -, rfl⟩ | ⟨rfl, -, rfl⟩ := sends
    · exact exec_sendcmd_begins (.inl idle) usable
    · cases entry
    · cases entry

/-- The ACK of `0xFF` in `KBDINIT` arms the slot again and begins the wait for `0xAA` (R161). -/
theorem exec_kbdinit_resetAcked (at1 : s.pos = .kbdinit (.reset .s1)) (acked : s.ackState = .acked)
    (first : s.idx = 0) :
    exec .kbdinit s = .next ((s.arm s.par.tBatMs).goto (.kbdinit .b1)) := by
  rw [exec_kbdinit at1, kbdinitAction, sendCommand, awaitAction, acked]
  exact congrArg _ (if_pos first)

/-- `[s1]` with RESEND below the bound writes the same byte again (R145). -/
theorem Sends.exec_resend (sends : Sends i bytes pos) (at1 : s.pos = pos .s1) (resend : s.ackState = .resend)
    (below : s.retries < s.par.maxRetries) :
    exec i s = .next { s with
      ackState := .idle, retries := s.retries + 1, pos := pos (.write (.poll .p0)) } := by
  obtain ⟨rearm, ret, runs, -⟩ := sends.routine
  rw [runs _ s at1, sendCommand, awaitAction, resend]
  exact congrArg _ (if_neg below.ne)

/-- `s` latched and answered `DeviceUnresponsive`, with the value `0xFE00 + opcode` (R148, R149). -/
def resendExhausted (s : State) (opcode : Byte) : State :=
  { s with
    ackState := .idle, unresp := true, latchStatus := .deviceUnresponsive,
    latchValue := BitVec.ofNat 32 (0xFE00 + opcode.toNat), rsp := 0x04#8 ++ BitVec.ofNat 32 (0xFE00 + opcode.toNat),
    pos := .idle, trace := .rsp .deviceUnresponsive (BitVec.ofNat 32 (0xFE00 + opcode.toNat)) :: s.trace }

/-- `[s1]` with RESEND at the bound latches the device (R148, R149). -/
theorem Sends.exec_exhausted (sends : Sends i bytes pos) (at1 : s.pos = pos .s1) (resend : s.ackState = .resend)
    (bound : s.retries = s.par.maxRetries) {opcode : Byte} (first : bytes.head? = some opcode) :
    exec i s = .next (resendExhausted s opcode) := by
  have head : bytes.getD 0 0 = opcode := by
    rw [List.getD_eq_getElem?_getD, ← List.head?_eq_getElem?, first, Option.getD_some]
  obtain ⟨rearm, ret, runs, fails⟩ := sends.failing
  rw [runs _ s at1, sendCommand, awaitAction, resend]
  simp only [resendAction, if_pos bound, head, pair32_eq]
  exact congrArg _ (fails _ _ _ nofun)

/-- `[s1]` while no byte has come and the deadline is ahead leaves the state (R147). -/
theorem Sends.exec_waits (sends : Sends i bytes pos) (at1 : s.pos = pos .s1) (pending : s.ackState = .pending)
    (waits : s.expired s.dl = false) : exec i s = .next s := by
  obtain ⟨rearm, ret, runs, -⟩ := sends.routine
  rw [runs _ s at1, sendCommand, awaitAction, pending]
  simp only [waits, Bool.false_eq_true, if_false, ← at1]
  rfl

/-- `[s1]` while no byte has come and the deadline has expired, then `[s2]`, which latches the device (R147). -/
theorem Sends.runs_timeout (sends : Sends i bytes pos) (at1 : s.pos = pos .s1) (pending : s.ackState = .pending)
    (late : s.expired s.dl = true) :
    Runs [i, i] s { latchedByTimeout (timedOut s) with ackState := .idle } := by
  obtain ⟨rearm, ret, runs, fails⟩ := sends.failing
  have expires : exec i s = .next ((s.setAck .timedOut).goto (pos .s2)) := by
    rw [runs _ s at1, sendCommand, awaitAction, pending]
    exact congrArg _ (if_pos late)
  have latches := runs .s2 ((s.setAck .timedOut).goto (pos .s2)) rfl
  rw [sendCommand, fails .timeout _ _ nofun] at latches
  exact .cons expires (.cons latches rfl)

/-- `s` after the failure of a command, or of the wait for `0xAA`, whose flush read the status `st` and found nothing
to drain. -/
def desyncFlushed (s : State) (st : Byte) (rest : List Byte) : State :=
  { desynchronized s with
    ackState := .idle, dl := s.deadlineIn s.par.tFlushMs, sreg := st, envq := rest,
    trace := .rsp .protocolError ((0 : BitVec 24) ++ s.ackByte) :: .ioR s.par.portPs2StCmd st :: s.trace }

/-- After a wrong byte, a flush that finds nothing to drain ends in the answer with that byte (R146, R150). -/
theorem Flushes.runs_desync {at_ : FlushPc → Position} {ret : Status → State → State}
    (flushes : Flushes i at_ ret) (answers : ∀ u, ret .ok u = desynchronized u) {st : Byte} {rest : List Byte}
    (lined : s.envq = st :: rest) (empty : st.getLsbD 0 = false) :
    Runs [i, i] ((s.setAck .idle).goto (at_ .f0)) (desyncFlushed s st rest) := by
  have run := flushes.runs_empty (s := (s.setAck .idle).goto (at_ .f0)) rfl lined empty
  rw [answers] at run
  exact run

/-- A flush after a wrong byte answers with that byte (R146, R150). -/
theorem Sends.desyncFlushes (sends : Sends i bytes pos) :
    ∃ ret, Flushes i (fun k => pos (.flush k)) ret ∧ ∀ u, ret .ok u = desynchronized u := by
  obtain ⟨rearm, ret, runs, fails⟩ := sends.failing
  exact ⟨_, fun k u here => by rw [runs _ u here, sendCommand],
    fun u => (fails .protocolError _ _ nofun).trans (respond_protocolError u)⟩

/-- The same in the wait for `0xAA` (R161). -/
theorem desyncFlushes_kbdinit :
    ∃ ret, Flushes .kbdinit (fun k => .kbdinit (.flush k)) ret ∧ ∀ u, ret .ok u = desynchronized u :=
  ⟨_, fun k u here => by rw [exec_kbdinit here, kbdinitAction], respond_protocolError⟩

/-- A byte that is neither ACK nor RESEND, in the four actions `[s1]`, `[s3]` and the flush (R146). -/
theorem Sends.runs_desync (sends : Sends i bytes pos) (at1 : s.pos = pos .s1) (desync : s.ackState = .desync)
    {st : Byte} {rest : List Byte} (lined : s.envq = st :: rest) (empty : st.getLsbD 0 = false) :
    Runs (List.replicate 4 i) s (desyncFlushed s st rest) := by
  obtain ⟨rearm, ret, runs, -⟩ := sends.routine
  obtain ⟨retF, flushes, answers⟩ := sends.desyncFlushes
  have leaves : exec i s = .next ((s.setAck .idle).goto (pos .s3)) := by
    rw [runs _ s at1, sendCommand, awaitAction, desync]
  exact .cons leaves (.cons (runs .s3 _ rfl) (flushes.runs_desync answers lined empty))

end Sys2Proof.Safety
end

section
/-! The obligations of the family on the outcomes of `[s1]` and on a latched device. -/

namespace Sys2Proof.Scope

open Sys2Proof.Machine Sys2Proof.Safety

/-- Settles O40: each outcome of `[s1]` on ACK and on RESEND. -/
theorem responseSelectsNextByte : Obligations.ResponseSelectsNextByte := by
  intro i bytes pos s sends at1
  refine ⟨sends.exec_acked at1, fun acked last plain => sends.exec_lastAcked plain at1 acked last,
    fun acked last isKbd isReset => ?reset, sends.exec_resend at1,
    fun _ resend bound first => sends.exec_exhausted at1 resend bound first⟩
  case reset =>
    subst isKbd isReset
    obtain ⟨_, _, _, _, other, -⟩ | ⟨-, -, rfl⟩ | ⟨-, other, -⟩ := sends
    · cases other
    · exact exec_kbdinit_resetAcked at1 acked (Nat.succ.inj last)
    · simp at other

/-- Settles O44: the latch is the first thing `[s0]` looks at. -/
theorem latchedDeviceShortCircuits : Obligations.LatchedDeviceShortCircuits := by
  intro nargs arg1 arg0 opcode s ready latched
  rw [exec_sendcmd_begin nargs arg1 arg0 opcode ready, sendCommand, if_pos latched]
  rfl

/-- Settles O45: `[s1]` before and after the deadline, and the write that finds it expired. -/
theorem commandTimeoutLatches : Obligations.CommandTimeoutLatches := fun _ _ _ _ sends =>
  ⟨sends.exec_waits, sends.runs_timeout, fun at2 late => sends.exec_write_expired late at2⟩

/-- Settles O46: the flush of a desync finds nothing to drain, or finds its deadline expired. -/
theorem desyncFailsWithFlush : Obligations.DesyncFailsWithFlush := fun _ _ _ _ sends =>
  ⟨fun _ _ at1 desync lined empty => sends.runs_desync at1 desync lined empty,
    fun at2 late => sends.exec_flush_expired late at2⟩

end Sys2Proof.Scope
end

section
/-! SUPPORT. `[b1]` (R160, R161): with a byte deposited, and with none. -/

namespace Sys2Proof.Safety

open Sys2Proof.Machine

variable {s : State}

/-- `[b1]` with a byte deposited does not look at how the byte was classed (R161). -/
theorem batAction_deposited (deposited : s.ackState ≠ .pending) :
    batAction s = if s.ackByte = 0xAA then (s.setAck .idle).goto (.kbdinit (.enable .s0))
      else (s.setAck .idle).goto (.kbdinit .b3) := by
  cases h : s.ackState with
  | pending => exact absurd h deposited
  | _ => rw [batAction, h]

/-- `[b1]` with nothing deposited looks at the deadline (R161). -/
theorem batAction_pending (pending : s.ackState = .pending) :
    batAction s = if s.expired s.dl then (s.setAck .timedOut).goto (.kbdinit .b2) else s.goto (.kbdinit .b1) := by
  rw [batAction, pending]

end Sys2Proof.Safety
end

section
/-! The obligation of the family on the wait for `0xAA`. -/

namespace Sys2Proof.Scope

open Sys2Proof.Machine Sys2Proof.Safety

/-- Settles O50: `[b1]` waits, expires, finds `0xAA`, or finds another byte, whose flush then ends the operation. -/
theorem batWaitOutcomes : Obligations.BatWaitOutcomes := by
  refine ⟨fun s at1 => ?_, fun s at2 late => exec_kbdinit_flush_expired late at2⟩
  have action : exec .kbdinit s = .next (batAction s) := exec_kbdinit at1
  refine ⟨fun pending waits => ?waits, fun pending late => ?expires, fun deposited passed => ?passed,
    fun st rest deposited wrong lined empty => ?wrong⟩
  case waits =>
    rw [action, batAction_pending pending, waits, if_neg Bool.false_ne_true, ← at1]
    rfl
  case expires =>
    rw [batAction_pending pending, if_pos late] at action
    exact .cons action (.cons (exec_kbdinit rfl) rfl)
  case passed =>
    rw [action, batAction_deposited deposited, if_pos passed]
    rfl
  case wrong =>
    rw [batAction_deposited deposited, if_neg wrong] at action
    obtain ⟨ret, flushes, answers⟩ := desyncFlushes_kbdinit
    exact .cons action (.cons (exec_kbdinit rfl) (flushes.runs_desync answers lined empty))

end Sys2Proof.Scope
end

section
/-! SUPPORT. A command whose bytes get RESENDs (R144, R145, R148): the attempts at one byte, and the bytes one after the
other. -/

namespace Sys2Proof.Safety

open Sys2Proof.Machine

/-! ### Lists -/

theorem repeated_succ (k : Nat) (is : List Instr) : repeated (k + 1) is = repeated k is ++ is := by
  simp [repeated, List.replicate_succ']

theorem repeatedBytes_succ (k : Nat) (bs : List Byte) : repeatedBytes (k + 1) bs = repeatedBytes k bs ++ bs := by
  simp [repeatedBytes, List.replicate_succ']

/-- A list shorter than another, zipped with it, and then one more of each. -/
theorem zip_concat {bytes : List Byte} {ks : List Nat} (k : Nat) (more : ks.length < bytes.length) :
    bytes.zip (ks ++ [k]) = bytes.zip ks ++ [(bytes.getD ks.length 0, k)] := by
  induction ks generalizing bytes with
  | nil =>
    cases bytes with
    | nil => exact absurd more (Nat.not_lt_zero _)
    | cons b bs => simp
  | cons l ks ih =>
    cases bytes with
    | nil => exact absurd more (Nat.not_lt_zero _)
    | cons b bs => exact congrArg _ (ih (Nat.lt_of_succ_lt_succ more))

theorem commandWrites_nil (p : Config.Params) (bytes : List Byte) : commandWrites p bytes [] = [] := by
  rw [commandWrites, List.zip_nil_right, List.flatMap_nil, List.reverse_nil]

/-- One more byte of a command: its writes come on top of the others. -/
theorem commandWrites_concat (p : Config.Params) {bytes : List Byte} {ks : List Nat} (k : Nat)
    (more : ks.length < bytes.length) :
    commandWrites p bytes (ks ++ [k]) =
      List.replicate (k + 1) (.ioW p.portPs2Data (bytes.getD ks.length 0)) ++ commandWrites p bytes ks := by
  rw [commandWrites, zip_concat k more, List.flatMap_append, List.flatMap_singleton, List.reverse_append,
    List.reverse_replicate, commandWrites]

/-! ### The stages of a command -/

/-- A command of a usable device at its label `l`, where its byte at index `j` got `r` RESENDs: `answers` are lined up,
and `writes` are the writes of the data port so far. -/
structure Stage (at_ : SendPc → Position) (p : Config.Params) (l : SendPc) (j r : Nat) (answers : List Byte)
    (writes : List TraceEvent) (s : State) : Prop where
  pos : s.pos = at_ l
  par : s.par = p
  unresp : s.unresp = false
  idx : s.idx = j
  retries : s.retries = r
  answers : s.envq = answers
  writes : s.trace.filter (isDataWrite p) = writes

section
variable {s : State} {i : Instr} {bytes rest : List Byte} {at_ : SendPc → Position} {st b : Byte} {p : Config.Params}
  {j r k : Nat} {ks : List Nat} {writes : List TraceEvent}

/-- The first action of a command leads to its first byte. -/
theorem Sends.begins (sends : Sends i bytes at_) (start : s.pos = at_ .s0 ∨ (s.pos = .idle ∧ entryOf i = at_ .s0))
    (usable : s.unresp = false) :
    ∃ u, exec i s = .next u ∧
      Stage at_ s.par (.write (.poll .p0)) 0 0 s.envq (s.trace.filter (isDataWrite s.par)) u :=
  ⟨_, sends.exec_begins start usable, rfl, rfl, usable, rfl, rfl, rfl, rfl⟩

variable (sends : Sends i bytes at_) (free : st.getLsbD 1 = false)
include sends free

/-- An attempt at a byte leads to `[s1]` with the reply in the slot. -/
theorem Stage.attempt (h : Stage at_ p (.write (.poll .p0)) j r (st :: b :: rest) writes s) :
    ∃ u, Runs (List.replicate 3 i ++ [.kbdByte]) s u ∧ u.ackState = ackClass b ∧
      Stage at_ p .s1 j r rest (.ioW p.portPs2Data (bytes.getD j 0) :: writes) u := by
  obtain ⟨at0, rfl, usable, rfl, rfl, answers, rfl⟩ := h
  exact ⟨_, sends.runs_attempt at0 rfl answers free, rfl, rfl, rfl, usable, rfl, rfl, rfl, replied_writes ..⟩

/-- An attempt that gets RESEND, below the bound, leads back to the same byte (R145). -/
theorem Stage.resent (h : Stage at_ p (.write (.poll .p0)) j r (st :: 0xFE :: rest) writes s)
    (below : r < p.maxRetries) :
    ∃ u, Runs (List.replicate 3 i ++ [.kbdByte, i]) s u ∧
      Stage at_ p (.write (.poll .p0)) j (r + 1) rest (.ioW p.portPs2Data (bytes.getD j 0) :: writes) u := by
  obtain ⟨u, attempt, resend, at1, rfl, usable, rfl, rfl, answers, hw⟩ := h.attempt sends free
  exact ⟨_, attempt.append (.cons (sends.exec_resend at1 resend below) rfl),
    rfl, rfl, usable, rfl, rfl, answers, hw⟩

/-- `k` attempts that get RESEND, up to the bound. -/
theorem Stage.resends (h : Stage at_ p (.write (.poll .p0)) j r (repeatedBytes k [st, 0xFE] ++ rest) writes s)
    (bound : r + k ≤ p.maxRetries) :
    ∃ u, Runs (repeated k (List.replicate 3 i ++ [.kbdByte, i])) s u ∧
      Stage at_ p (.write (.poll .p0)) j (r + k) rest
        (List.replicate k (.ioW p.portPs2Data (bytes.getD j 0)) ++ writes) u := by
  induction k generalizing rest with
  | zero => exact ⟨s, rfl, h⟩
  | succ k ih =>
    rw [repeatedBytes_succ, List.append_assoc] at h
    obtain ⟨u, first, hu⟩ := ih h (by omega)
    obtain ⟨v, last, hv⟩ := hu.resent sends free (by omega)
    rw [repeated_succ]
    exact ⟨v, first.append last, hv⟩

/-- `k` RESENDs and then the reply `b`: all the attempts but their last action, which finds `b` in the slot. -/
theorem Stage.replies
    (h : Stage at_ p (.write (.poll .p0)) j 0 (repeatedBytes k [st, 0xFE] ++ [st, b] ++ rest) writes s)
    (bound : k ≤ p.maxRetries) :
    ∃ u, (∀ t, exec i u = .next t → Runs (attempts i k) s t) ∧ u.ackState = ackClass b ∧
      Stage at_ p .s1 j k rest (List.replicate (k + 1) (.ioW p.portPs2Data (bytes.getD j 0)) ++ writes) u := by
  rw [List.append_assoc] at h
  obtain ⟨u, resends, hu⟩ := h.resends sends free (by omega)
  rw [Nat.zero_add] at hu
  obtain ⟨v, attempt, reply, hv⟩ := hu.attempt sends free
  refine ⟨v, fun t last => ?_, reply, hv⟩
  rw [attempts, repeated_succ]
  exact resends.append (attempt.append (.cons last rfl))

/-- A byte that gets `k` RESENDs and then ACK, and is not the last, leads to the next byte (R144). -/
theorem Stage.done (h : Stage at_ p (.write (.poll .p0)) j 0 (resendsThenAck st k ++ rest) writes s)
    (bound : k ≤ p.maxRetries) (more : j + 1 < bytes.length) :
    ∃ u, Runs (attempts i k) s u ∧ Stage at_ p (.write (.poll .p0)) (j + 1) 0 rest
      (List.replicate (k + 1) (.ioW p.portPs2Data (bytes.getD j 0)) ++ writes) u := by
  obtain ⟨u, finish, acked, at1, rfl, usable, rfl, -, answers, hw⟩ := h.replies sends free bound
  exact ⟨_, finish _ (sends.exec_acked at1 acked more), rfl, rfl, usable, rfl, rfl, answers, hw⟩

/-- The bytes before one, each acknowledged after the RESENDs that `ks` counts. -/
theorem Stage.allDone
    (h : Stage at_ p (.write (.poll .p0)) 0 0 (ks.flatMap (resendsThenAck st) ++ rest) writes s)
    (bound : ∀ k ∈ ks, k ≤ p.maxRetries) (more : ks.length < bytes.length) :
    ∃ u, Runs (ks.flatMap (attempts i)) s u ∧
      Stage at_ p (.write (.poll .p0)) ks.length 0 rest (commandWrites p bytes ks ++ writes) u := by
  induction ks using List.reverseRecOn generalizing rest with
  | nil =>
    rw [commandWrites_nil]
    exact ⟨s, rfl, h⟩
  | append_singleton ks k ih =>
    rw [List.length_append, List.length_singleton] at more
    rw [List.flatMap_append, List.flatMap_singleton, List.append_assoc] at h
    obtain ⟨u, others, hu⟩ := ih h (fun k hk => bound k (List.mem_append_left _ hk)) (by omega)
    obtain ⟨v, last, hv⟩ := hu.done sends free (bound k (by simp)) more
    rw [List.flatMap_append, List.flatMap_singleton, List.length_append, List.length_singleton,
      commandWrites_concat p k (by omega), List.append_assoc]
    exact ⟨v, others.append last, hv⟩

/-- The last byte, with `k` RESENDs and then ACK, ends the operation. -/
theorem Stage.succeeds (h : Stage at_ p (.write (.poll .p0)) j 0 (resendsThenAck st k ++ rest) writes s)
    (plain : ¬ (i = .kbdinit ∧ bytes = [0xFF])) (bound : k ≤ p.maxRetries) (last : j + 1 = bytes.length) :
    ∃ u, Runs (attempts i k) s ((u.setAck .idle).respond .ok 0) ∧ Stage at_ p .s1 j k rest
      (List.replicate (k + 1) (.ioW p.portPs2Data (bytes.getD j 0)) ++ writes) u := by
  obtain ⟨u, finish, acked, hu⟩ := h.replies sends free bound
  exact ⟨u, finish _ (sends.exec_lastAcked plain hu.pos acked (hu.idx ▸ last)), hu⟩

/-- A byte that gets nothing but RESENDs exhausts them: the command fails and the device is latched (R148, R149). -/
theorem Stage.exhausted {opcode : Byte}
    (h : Stage at_ p (.write (.poll .p0)) j 0 (repeatedBytes (p.maxRetries + 1) [st, 0xFE] ++ rest) writes s)
    (first : bytes.head? = some opcode) :
    ∃ u, Runs (attempts i p.maxRetries) s (resendExhausted u opcode) ∧ Stage at_ p .s1 j p.maxRetries rest
      (List.replicate (p.maxRetries + 1) (.ioW p.portPs2Data (bytes.getD j 0)) ++ writes) u := by
  rw [repeatedBytes_succ] at h
  obtain ⟨u, finish, resend, hu⟩ := h.replies sends free le_rfl
  exact ⟨u, finish _ (sends.exec_exhausted hu.pos resend (hu.retries.trans (by rw [hu.par])) first), hu⟩

end

end Sys2Proof.Safety
end

section
/-! The obligations of the family on RESENDs. -/

namespace Sys2Proof.Scope

open Sys2Proof.Machine Sys2Proof.Safety

/-- Settles O42: the bytes before the last, then the last. -/
theorem resendsThenAckSucceed : Obligations.ResendsThenAckSucceed := by
  intro nargs arg1 arg0 opcode st ks rest s ready usable free count bound answers
  have sends : Sends (.sendcmd nargs arg1 arg0 opcode) (commandBytes nargs arg1 arg0 opcode) .sendcmd :=
    .inl ⟨nargs, arg1, arg0, opcode, rfl, rfl, rfl⟩
  obtain rfl | ⟨ks, k, rfl⟩ := ks.eq_nil_or_concat'
  · cases count
  rw [List.length_append, List.length_singleton] at count
  obtain ⟨u, begins, hu⟩ := sends.begins (ready.symm.imp id (⟨·, rfl⟩)) usable
  rw [answers, List.flatMap_append, List.flatMap_singleton, List.append_assoc] at hu
  obtain ⟨v, others, hv⟩ := hu.allDone sends free (fun k hk => bound k (List.mem_append_left _ hk)) (by omega)
  obtain ⟨t, last, -, -, unresp, idx, retries, left, writes⟩ :=
    hv.succeeds sends free nofun (bound k (by simp)) count
  refine ⟨(t.setAck .idle).respond .ok 0, .cons begins ?runs, rfl, rfl, rfl, unresp, left, ?idx, ?retries, ?writes⟩
  case runs =>
    rw [List.flatMap_append, List.flatMap_singleton]
    exact others.append last
  case idx => simp [idx]
  case retries => simp [retries]
  case writes =>
    rw [commandWrites_concat s.par k (by omega), List.append_assoc]
    exact writes

/-- Settles O43: the bytes before the one that is never acknowledged, then that one. -/
theorem resendsExhaustRetries : Obligations.ResendsExhaustRetries := by
  intro i bytes pos st ks rest s sends start usable free more bound answers
  obtain ⟨opcode, first⟩ := Option.isSome_iff_exists.1
    (List.isSome_head?.2 (List.ne_nil_of_length_pos (Nat.zero_lt_of_lt more)))
  obtain ⟨u, begins, hu⟩ := sends.begins start usable
  rw [answers, List.append_assoc] at hu
  obtain ⟨v, others, hv⟩ := hu.allDone sends free bound more
  obtain ⟨t, last, -, -, -, -, -, left, writes⟩ := hv.exhausted sends free first
  refine ⟨resendExhausted t opcode, opcode, first, .cons begins ?runs, rfl, rfl, rfl, rfl, rfl, rfl, left, ?writes⟩
  case runs =>
    rw [List.flatMap_append, List.flatMap_singleton]
    exact others.append last
  case writes =>
    rw [commandWrites_concat s.par _ more, List.append_assoc]
    exact writes

end Sys2Proof.Scope
end

section
/-! SUPPORT. The frames of the commands to the device (R141, R160). -/

namespace Sys2Proof.Safety

open Sys2Proof.Machine

variable {s t : State}

/-- The state without what the commands, the bring-up and a response write, and without the answers used up. -/
def outsideCommand (s : State) : State :=
  { outsideBringUp s with ackState := .idle, idx := 0, retries := 0, latchStatus := .ok, latchValue := 0 }

/-- What the bring-up does not write, the commands of `KBDINIT` may write. -/
theorem BringsUpOnly.outsideCommand (h : BringsUpOnly s t) : outsideCommand t = outsideCommand s :=
  congrArg (fun u : State =>
    { u with ackState := .idle, idx := 0, retries := 0, latchStatus := .ok, latchValue := 0 }) h

section
variable (s)

@[simp] theorem outsideCommand_goto (p : Position) : outsideCommand (s.goto p) = outsideCommand s := rfl
@[simp] theorem outsideCommand_respond (st : Status) (v : Word32) :
    outsideCommand (s.respond st v) = outsideCommand s := rfl
@[simp] theorem outsideCommand_setDeadline (ms : Word32) : outsideCommand (s.setDeadline ms) = outsideCommand s := rfl
@[simp] theorem outsideCommand_readStatus : outsideCommand s.readStatus = outsideCommand s :=
  BringsUpOnly.outsideCommand (outsideBringUp_readStatus s)
@[simp] theorem outsideCommand_readData : outsideCommand s.readData = outsideCommand s :=
  BringsUpOnly.outsideCommand (outsideBringUp_readData s)
@[simp] theorem outsideCommand_ioWrite (p : Port) (b : Byte) : outsideCommand (s.ioWrite p b) = outsideCommand s := rfl
@[simp] theorem outsideCommand_setCtrl (c : CtrlState) : outsideCommand (s.setCtrl c) = outsideCommand s := rfl
@[simp] theorem outsideCommand_unlatch : outsideCommand { s with unresp := false } = outsideCommand s := rfl
@[simp] theorem outsideCommand_setAck (a : AckState) : outsideCommand (s.setAck a) = outsideCommand s := rfl
@[simp] theorem outsideCommand_arm (ms : Word32) : outsideCommand (s.arm ms) = outsideCommand s := rfl
@[simp] theorem outsideCommand_latch (st : Status) (v : Word32) :
    outsideCommand (s.latch st v) = outsideCommand s := rfl
@[simp] theorem outsideCommand_count (j r : Nat) :
    outsideCommand { s with idx := j, retries := r } = outsideCommand s := rfl

end

/-- What `KBDINIT` leaves. -/
def CommandsOnly (s t : State) : Prop := outsideCommand t = outsideCommand s

theorem CommandsOnly.frame (h : CommandsOnly s t) : t = { s with
    ctrlState := t.ctrlState, ackState := t.ackState, idx := t.idx, retries := t.retries, dl := t.dl,
    sreg := t.sreg, cur := t.cur, unresp := t.unresp, latchStatus := t.latchStatus, latchValue := t.latchValue,
    rsp := t.rsp, pos := t.pos, envq := t.envq, draws := t.draws, trace := t.trace } :=
  congrArg (fun u : State => { u with
    ctrlState := t.ctrlState, ackState := t.ackState, idx := t.idx, retries := t.retries, dl := t.dl,
    sreg := t.sreg, cur := t.cur, unresp := t.unresp, latchStatus := t.latchStatus, latchValue := t.latchValue,
    rsp := t.rsp, pos := t.pos, envq := t.envq, draws := t.draws, trace := t.trace }) h

section
variable {ret : Status → Word32 → State → State} (keeps : ∀ st v u, CommandsOnly u (ret st v u))
include keeps

/-- `ps2_init` is part of `KBDINIT`, with a caller that writes no more than a command (R160). -/
theorem ps2Init_commandsOnly {at_ : InitPc → Position} (l : InitPc) : CommandsOnly s (ps2Init l at_ ret s) := by
  unfold CommandsOnly at keeps
  refine ps2Init_elim (P := CommandsOnly s) l ?i0 ?i1 ?i2 (fun k _ => ?flush)
    (fun k _ => ?selfCmd) (fun k _ => ?selfRead) (fun k _ => ?portCmd) (fun k _ => ?portRead) (fun k _ => ?enable)
  case i0 | i1 | i2 => simp [CommandsOnly]
  case flush =>
    refine flush_elim (P := CommandsOnly s) k ?_ ?_ ?_ ?_ ?_ ?_ <;> simp [CommandsOnly, keeps]
  case selfCmd | portCmd | enable =>
    refine cmdWrite_elim (P := CommandsOnly s) k ?_ ?_ ?_ ?_ ?_ ?_ <;> simp [CommandsOnly, keeps]
  case selfRead | portRead =>
    refine readFromDevice_elim (P := CommandsOnly s) k ?_ ?_ ?_ ?_ ?_ (fun _ => ?read)
    case read =>
      split_ifs <;> simp [CommandsOnly, keeps]
    all_goals simp [CommandsOnly, keeps]

/-- Each action of `send_command` itself, and of the micro-routines it calls (R141). -/
theorem sendCommand_commandsOnly {bytes : List Byte} {rearm : Bool} {at_ : SendPc → Position} (l : SendPc) :
    CommandsOnly s (sendCommand bytes rearm l at_ ret s) := by
  unfold CommandsOnly at keeps
  refine sendCommand_elim (P := CommandsOnly s) l ?_ ?_ (fun k _ => ?write) (fun _ => ?await) ?_ ?_
    (fun k _ => ?flush)
  case write =>
    refine writeToDevice_elim (P := CommandsOnly s) k ?_ ?_ ?_ ?_ ?_ ?_ ?_ <;> simp [CommandsOnly, keeps]
  case await =>
    refine awaitAction_elim (P := CommandsOnly s) ?_ ?_ ?_ ?_ (fun _ _ => rfl) ?_ (fun _ _ => rfl) ?_ ?_ <;>
      simp [CommandsOnly, keeps]
  case flush =>
    refine flush_elim (P := CommandsOnly s) k ?_ ?_ ?_ ?_ ?_ ?_ <;> simp [CommandsOnly, keeps]
  all_goals simp [CommandsOnly, keeps]

end

theorem batAction_commandsOnly : CommandsOnly s (batAction s) := by
  unfold batAction
  split
  all_goals split <;> rfl

/-- The bring-up, the two commands, and the wait for `0xAA` with its exits (R160). -/
theorem kbdinitAction_commandsOnly (l : KbdPc) : CommandsOnly s (kbdinitAction l s) := by
  cases l with
  | init l =>
    refine ps2Init_commandsOnly (fun st v u => ?_) l
    split <;> rfl
  | reset l =>
    refine sendCommand_commandsOnly (fun st v u => ?_) l
    split <;> rfl
  | enable l => exact sendCommand_commandsOnly (ret := fun st v s => s.respond st v) (fun _ _ _ => rfl) l
  | b1 => exact batAction_commandsOnly
  | b2 | b3 => rfl
  | flush l => refine flush_elim (P := CommandsOnly s) l ?_ ?_ ?_ ?_ ?_ ?_ <;> simp [CommandsOnly]

end Sys2Proof.Safety
end

section
/-! The obligation of the family on the frames of the commands to the device. -/

namespace Sys2Proof.Scope

open Sys2Proof.Machine Sys2Proof.Safety

/-- Settles O53: both have the frame of the one action they run; `SENDCMD` leaves `CTRL_STATE` as well. -/
theorem frameOfDeviceCommands : Obligations.FrameOfDeviceCommands := by
  refine fun i s t he => ⟨?sendcmd, ?kbdinit⟩
  case sendcmd =>
    rintro ⟨nargs, arg1, arg0, opcode, rfl⟩
    obtain ⟨l, -, rfl⟩ := exec_sendcmd_next nargs arg1 arg0 opcode he
    have frame := (sendCommand_commandsOnly (s := s) (bytes := commandBytes nargs arg1 arg0 opcode) (rearm := false)
      (at_ := .sendcmd) (ret := fun st v s => s.respond st v) (fun _ _ _ => rfl) l).frame
    rwa [sendCommand_ctrlState (ret := fun st v s => s.respond st v) (fun _ _ _ => rfl)] at frame
  case kbdinit =>
    rintro rfl
    obtain ⟨l, -, rfl⟩ := exec_kbdinit_next he
    exact (kbdinitAction_commandsOnly l).frame

end Sys2Proof.Scope
end

section
/-! SUPPORT. The two commands of `KBDINIT` and the wait between them, when the device acknowledges and sends `0xAA`
(R160 to R162). -/

namespace Sys2Proof.Safety

open Sys2Proof.Machine

variable {s : State} {i : Instr} {bytes rest : List Byte} {pos : SendPc → Position} {st b c : Byte}

/-- A byte that comes while the slot is armed is deposited in it (R140). -/
theorem exec_kbdByte_deposits (armed : s.ackState = .pending) (answers : s.envq = b :: rest) :
    exec .kbdByte s = .next { s with
      envq := rest, ackByte := b, ackState := ackClass b, trace := .eoi s.par.irqKbd :: .kbd b :: s.trace } := by
  rw [exec_kbdByte, kbdEvent_effect]
  simp [armed, answers, envAnswer_cons answers]

/-- A deposited byte disarms the slot (R140). -/
theorem ackClass_ne_pending (b : Byte) : ackClass b ≠ .pending := by
  unfold ackClass
  split_ifs <;> simp

/-- The completed bring-up goes on to the `0xFF` command (R160, R164). -/
theorem exec_kbdinit_enabled (at1 : s.pos = .kbdinit (.init (.enable .k1))) :
    exec .kbdinit s = .next { s with
      ctrlState := .deviceEnabled, pos := .kbdinit (.reset .s0),
      trace := .ioW s.par.portPs2StCmd 0xAE :: s.trace } :=
  exec_kbdinit at1

/-- `[b1]` with `0xAA` deposited goes on to the `0xF4` command (R161). -/
theorem exec_kbdinit_passed (at1 : s.pos = .kbdinit .b1) (deposited : s.ackState ≠ .pending)
    (passed : s.ackByte = 0xAA) :
    exec .kbdinit s = .next ((s.setAck .idle).goto (.kbdinit (.enable .s0))) := by
  rw [exec_kbdinit at1, kbdinitAction, batAction_deposited deposited, if_pos passed]

/-- A command of a usable device up to the reply to its first byte. -/
theorem Sends.runs_firstAttempt (sends : Sends i bytes pos) (at0 : s.pos = pos .s0) (usable : s.unresp = false)
    (first : bytes.getD 0 0 = c) (answers : s.envq = st :: b :: rest) (free : st.getLsbD 1 = false) :
    Runs (List.replicate 4 i ++ [.kbdByte]) s
      (replied { s with idx := 0, retries := 0 } c st b rest (pos .s1)) :=
  .cons (sends.exec_begins (.inl at0) usable)
    (sends.runs_attempt (s := { s with idx := 0, retries := 0 }.goto _) rfl first answers free)

/-- From the ACK of `0xFF` to the `0xF4` command (R161): the slot, armed again, takes `0xAA`, and `[b1]` finds it. -/
theorem runs_kbdinit_bat (at1 : s.pos = .kbdinit (.reset .s1)) (acked : s.ackState = .acked) (first : s.idx = 0)
    (answers : s.envq = 0xAA :: rest) :
    Runs [.kbdinit, .kbdByte, .kbdinit] s { s with
      ackState := .idle, ackByte := 0xAA, dl := s.deadlineIn s.par.tBatMs, envq := rest,
      pos := .kbdinit (.enable .s0), trace := .eoi s.par.irqKbd :: .kbd 0xAA :: s.trace } := by
  have rearms := exec_kbdinit_resetAcked at1 acked first
  have deposits := exec_kbdByte_deposits (s := (s.arm s.par.tBatMs).goto (.kbdinit .b1)) rfl answers
  refine .cons rearms (.cons deposits (.cons (exec_kbdinit_passed rfl (ackClass_ne_pending 0xAA) rfl) ?_))
  ext1 <;> simp

/-- The `0xFF` command acknowledged, and `0xAA` (R160, R161). -/
theorem runs_kbdinit_reset (at0 : s.pos = .kbdinit (.reset .s0)) (usable : s.unresp = false)
    (answers : s.envq = st :: 0xFA :: 0xAA :: rest) (free : st.getLsbD 1 = false) :
    Runs (List.replicate 4 .kbdinit ++ [.kbdByte] ++ [.kbdinit, .kbdByte, .kbdinit]) s { s with
      ackState := .idle, ackByte := 0xAA, idx := 0, retries := 0, dl := s.deadlineIn s.par.tBatMs, sreg := st,
      envq := rest, pos := .kbdinit (.enable .s0),
      trace := .eoi s.par.irqKbd :: .kbd 0xAA :: .eoi s.par.irqKbd :: .kbd 0xFA ::
        .ioW s.par.portPs2Data 0xFF :: .ioR s.par.portPs2StCmd st :: s.trace } := by
  have sends : Sends .kbdinit [0xFF] fun l => .kbdinit (.reset l) := .inr (.inl ⟨rfl, rfl, rfl⟩)
  exact (sends.runs_firstAttempt at0 usable rfl answers free).append (runs_kbdinit_bat rfl rfl rfl rfl)

/-- `0xF4` acknowledged ends `KBDINIT` (R160, R162). -/
theorem runs_kbdinit_enable (at0 : s.pos = .kbdinit (.enable .s0)) (usable : s.unresp = false)
    (answers : s.envq = st :: 0xFA :: rest) (free : st.getLsbD 1 = false) :
    Runs (List.replicate 4 .kbdinit ++ [.kbdByte] ++ [.kbdinit]) s
      (((replied { s with idx := 0, retries := 0 } 0xF4 st 0xFA rest (.kbdinit (.enable .s1))).setAck .idle).respond
        .ok 0) := by
  have sends : Sends .kbdinit [0xF4] fun l => .kbdinit (.enable l) := .inr (.inr ⟨rfl, rfl, rfl⟩)
  exact (sends.runs_firstAttempt at0 usable rfl answers free).append
    (.cons (sends.exec_lastAcked (by decide) rfl rfl rfl) rfl)

end Sys2Proof.Safety
end

section
/-! The obligation of the family on the whole successful `KBDINIT`. -/

namespace Sys2Proof.Scope

open Sys2Proof.Machine Sys2Proof.Safety

/-- Settles O48: the bring-up, the write that enables the port, `0xFF` and the wait for `0xAA`, and `0xF4`. -/
theorem kbdinitBringsUpKeyboard : Obligations.KbdinitBringsUpKeyboard := by
  refine ⟨rfl, fun c0 c1 c2 c3 c4 c5 o1 o2 rest s ready answers empty free1 free2 free3 free4 free5 full1 full2 => ?_⟩
  have brings : BringsUp .kbdinit fun l => .kbdinit (.init l) := .inr ⟨rfl, rfl⟩
  have bringUp := brings.runs_untilEnable (exec_kbdinit_begin ready) answers empty free1 free2 free3 full1 full2
  have whole := bringUp.append <| .cons (exec_kbdinit_enabled rfl) <| (runs_kbdinit_reset rfl rfl rfl free4).append <|
    runs_kbdinit_enable rfl rfl rfl free5
  exact ⟨_, whole, rfl, rfl, rfl, rfl, rfl, rfl, rfl, rfl, rfl, rfl, rfl⟩

end Sys2Proof.Scope
end

section
/-! SUPPORT. The ways on from an action of the controller bring-up, and its port writes (R121, R164). -/

namespace Sys2Proof.Safety

open Sys2Proof.Machine

variable {s t : State}

/-- The ways on from the action of `ps2_init` at the label `l`: it goes on inside, it fails and returns so, or it is the
completed `0xAE` write and returns `Ok` (R121). -/
inductive InitOutcome (at_ : InitPc → Position) (ret : Status → Word32 → State → State) (l : InitPc) (s : State) :
    State → Prop
  | moves (k : InitPc) (u : State) : InitOutcome at_ ret l s (u.goto (at_ k))
  | fails {st : Status} (v : Word32) (u : State) (failure : st ≠ .ok) : InitOutcome at_ ret l s (ret st v u)
  | completes (last : l = .enable .k1) :
      InitOutcome at_ ret l s (ret .ok 0 ((s.ioWrite s.par.portPs2StCmd 0xAE).setCtrl .deviceEnabled))

/-- Each action of `ps2_init`, and of the micro-routines it calls, has one of these outcomes. -/
theorem ps2Init_outcome (at_ : InitPc → Position) (ret : Status → Word32 → State → State) (l : InitPc) :
    InitOutcome at_ ret l s (ps2Init l at_ ret s) := by
  have timeout (u : State) : InitOutcome at_ ret l s (ret .timeout 0 u) := .fails 0 u nofun
  refine ps2Init_elim (P := InitOutcome at_ ret l s) l (fun _ => .moves _ _) (fun _ => .moves _ _)
    (fun _ => .moves _ _) (fun k _ => ?flush) (fun k _ => ?selfCmd) (fun k _ => ?selfRead) (fun k _ => ?portCmd)
    (fun k _ => ?portRead) (fun k e => ?enable)
  case flush =>
    exact flush_elim (P := InitOutcome at_ ret l s) k (fun _ => .moves _ _) (fun _ _ => .moves _ _)
      (fun _ _ => .moves _ _) (fun _ _ => timeout _) (fun _ _ => .moves _ _) (fun _ => .moves _ _)
  case selfCmd | portCmd =>
    exact cmdWrite_elim (P := InitOutcome at_ ret l s) k (fun _ => .moves _ _) (fun _ _ => .moves _ _)
      (fun _ _ => .moves _ _) (fun _ _ => timeout _) (fun _ _ => .moves _ _) (fun _ => .moves _ _)
  case selfRead | portRead =>
    refine readFromDevice_elim (P := InitOutcome at_ ret l s) k (fun _ => .moves _ _) (fun _ _ => .moves _ _)
      (fun _ _ => .moves _ _) (fun _ _ => timeout _) (fun _ _ => .moves _ _) (fun _ => ?_)
    rw [if_neg nofun]
    split
    · exact .fails _ _ nofun
    · exact .moves _ _
  case enable =>
    exact cmdWrite_elim (P := InitOutcome at_ ret l s) k (fun _ => .moves _ _) (fun _ _ => .moves _ _)
      (fun _ _ => .moves _ _) (fun _ _ => timeout _) (fun _ _ => .moves _ _) (fun hk => .completes (by rw [e, hk]))

/-- The bring-up writes the command port only (R51, R82). -/
theorem initAccess_not_dataWrite (ok : s.par.Ok) (l : InitPc) :
    ∀ e ∈ (initAccess s l).entries s, isDataWrite s.par e = false := by
  obtain ⟨-, -, -, -, -, -, -, -, dataStCmd⟩ := ok
  exact initAccess_entries l (fun _ => rfl) (fun _ => rfl) fun _ _ _ => beq_eq_false_iff_ne.2 dataStCmd.symm

/-- An action whose access is no write of the data port leaves the writes of the data port. -/
theorem Acted.dataWrites {a : Access} (acted : Acted s a t) (others : ∀ e ∈ a.entries s, isDataWrite s.par e = false) :
    t.trace.filter (isDataWrite s.par) = s.trace.filter (isDataWrite s.par) := by
  have none : (a.entries s).filter (isDataWrite s.par) = [] := by simpa using others
  obtain ⟨-, ht⟩ | ⟨-, st, v, ht⟩ := acted.history
  · rw [ht, List.filter_append, none, List.nil_append]
  · rw [ht, List.filter_cons_of_neg Bool.false_ne_true, List.filter_append, none, List.nil_append]

end Sys2Proof.Safety
end

section
/-! The obligation of the family on a controller bring-up that fails. -/

namespace Sys2Proof.Scope

open Sys2Proof.Machine Sys2Proof.Safety

/-- Settles O49: the writes of the bring-up go to the command port, and `KBDINIT` answers wherever `ps2_init` fails. -/
theorem failedBringupSendsNothing : Obligations.FailedBringupSendsNothing := by
  intro l s t here ok he
  rw [exec_kbdinit here] at he
  have next : kbdinitAction (.init l) s = t := Host.Outcome.next.inj he
  have acted : Acted s (kbdAccess s (.init l)) t :=
    next ▸ kbdinitAction_acted (.init l) fun _ => ne_of_eq_of_ne here nofun
  have outcome : InitOutcome (fun l => .kbdinit (.init l))
      (fun st v s => if st = .ok then s.goto (.kbdinit (.reset .s0)) else s.respond st v) l s t :=
    next ▸ ps2Init_outcome ..
  refine ⟨acted.dataWrites (initAccess_not_dataWrite ok l), ?_⟩
  cases outcome with
  | moves k u => exact .inl ⟨k, rfl⟩
  | fails v u failure =>
    rw [if_neg failure]
    exact .inr (.inl ⟨rfl, _, v, failure, rfl, rfl⟩)
  | completes last => exact .inr (.inr ⟨last, rfl, rfl⟩)

end Sys2Proof.Scope
end
